-- ==== Sys2Proof/Word.lean ====
section
/-!
DEFINITION. The plain shapes of the model: the 16-bit storage word (R10), the 64-bit transaction word (R110),
the 4-bit pen (R14), and a sparse array.
-/

namespace Sys2Proof

/-- A storage word, `u16` (00_scope.md R10). -/
abbrev Word := BitVec 16

/-- A transaction word (30_encoding.md R110). -/
abbrev Txn := BitVec 64

/-- A pen, 0..15 (00_scope.md R14). -/
abbrev Pen := BitVec 4

/-- A sparse array: (index, value) pairs. What an unlisted index reads as, and the one canonical form, are
`Machine.Store.read` and `Machine.Store.wf` of Machine/Ops.lean. -/
abbrev Store (α : Type) := List (Nat × α)

end Sys2Proof
end

