-- ==== Sys2Proof/Syntax.lean ====
section
/-!
DEFINITION. The transactions: one constructor for each row of spec/opcode_table.json, with the operands the
rule of the row names. Layer, block and palette numbers and offsets are counts; data and mask are bits.
-/

namespace Sys2Proof

/-- The pass operand of H.DRAW: DATA[0], 0 BACK, 1 FRONT (R121). -/
inductive LayerPass where
  | back | front
  deriving DecidableEq, Repr

/-- The pass operand of H.SPRDRAW: DATA[0], 0 LOW, 1 HIGH (R121). -/
inductive SprPass where
  | low | high
  deriving DecidableEq, Repr

/-- The ports of the block (R446). -/
inductive Port where
  | cpuBus | scheduler | harness
  deriving DecidableEq, Repr

/-- One transaction (R118, R120, R121, R122). `l` is a layer number, `b` a control block number, `off` an
OFFSET field, `i` a palette index. -/
inductive Instr where
  /-- TILE.WR (R150) -/
  | tileWr (l off : Nat) (data mask : Word)
  /-- TILE.RD (R151) -/
  | tileRd (l off : Nat)
  /-- RSCR.WR (R152) -/
  | rscrWr (l off : Nat) (data mask : Word)
  /-- RSCR.RD (R153) -/
  | rscrRd (l off : Nat)
  /-- CSCR.WR (R154) -/
  | cscrWr (l off : Nat) (data mask : Word)
  /-- CSCR.RD (R155) -/
  | cscrRd (l off : Nat)
  /-- CTRL.WR (R156) -/
  | ctrlWr (b off : Nat) (data mask : Word)
  /-- CTRL.RD (R157) -/
  | ctrlRd (b off : Nat)
  /-- PAL.WR bank 0 (R158) -/
  | palWr0 (off : Nat) (data mask : Word)
  /-- PAL.RD bank 0 (R159) -/
  | palRd0 (off : Nat)
  /-- PAL.WR bank 1 (R160) -/
  | palWr1 (off : Nat) (data mask : Word)
  /-- PAL.RD bank 1 (R161) -/
  | palRd1 (off : Nat)
  /-- SPR.WR (R162) -/
  | sprWr (off : Nat) (data mask : Word)
  /-- SPR.RD (R163) -/
  | sprRd (off : Nat)
  /-- DMA.WR (R164); OFFSET, MASK and DATA are ignored (R116) -/
  | dmaWr
  /-- DMA.RD (R165); OFFSET is unconstrained (R124) -/
  | dmaRd
  /-- PROT.WR (R351); OFFSET is ignored -/
  | protWr (data mask : Word)
  /-- PROT.RD (R352); OFFSET is ignored -/
  | protRd
  /-- FRAME.RENDER (R380) -/
  | frameRender
  /-- H.UPDATE (R228) -/
  | hUpdate (l : Nat)
  /-- H.RENDER (R229) -/
  | hRender (l : Nat)
  /-- H.DRAW (R223) -/
  | hDraw (l : Nat) (pass : LayerPass)
  /-- H.SPRDRAW (R319) -/
  | hSprdraw (pass : SprPass)
  /-- H.MARKUSED (R270) -/
  | hMarkused (i : Nat)
  /-- H.RECOMPUTE (R272) -/
  | hRecompute
  /-- H.SETFLIP (R231) -/
  | hSetflip (l : Nat) (f : Bool)
  /-- H.MARKALLDIRTY (R230) -/
  | hMarkalldirty (l : Nat)
  /-- H.LATCHSCROLL (R395) -/
  | hLatchscroll (l : Nat)
  /-- H.CLEARUSED (R396) -/
  | hClearused
  /-- H.INVALIDATE (R275) -/
  | hInvalidate (l : Nat)
  /-- H.FILL (R397) -/
  | hFill
  /-- H.OUTPUT (R398) -/
  | hOutput
  deriving DecidableEq, Repr

end Sys2Proof
end

