-- ==== Sys2Proof/WellFormed.lean ====
section
/-!
DEFINITION. The transactions the 64-bit word can spell: every count fits its field (R110).
-/

namespace Sys2Proof

/-- SUB is 3 bits (R110). -/
def subOk (n : Nat) : Bool := decide (n < 8)

/-- OFFSET is 16 bits (R110). -/
def offsetOk (n : Nat) : Bool := decide (n < 65536)

/-- Every number of the transaction fits the field that carries it. A layer the configuration lacks is
well-formed: it decodes and faults at execution (R119). -/
def Instr.wellFormed (i : Instr) : Bool :=
  match i with
  | .tileWr l off _ _ => subOk l && offsetOk off
  | .tileRd l off => subOk l && offsetOk off
  | .rscrWr l off _ _ => subOk l && offsetOk off
  | .rscrRd l off => subOk l && offsetOk off
  | .cscrWr l off _ _ => subOk l && offsetOk off
  | .cscrRd l off => subOk l && offsetOk off
  | .ctrlWr b off _ _ => subOk b && offsetOk off
  | .ctrlRd b off => subOk b && offsetOk off
  | .palWr0 off _ _ => offsetOk off
  | .palRd0 off => offsetOk off
  | .palWr1 off _ _ => offsetOk off
  | .palRd1 off => offsetOk off
  | .sprWr off _ _ => offsetOk off
  | .sprRd off => offsetOk off
  | .dmaWr => true
  | .dmaRd => true
  | .protWr _ _ => true
  | .protRd => true
  | .frameRender => true
  | .hUpdate l => offsetOk l
  | .hRender l => offsetOk l
  | .hDraw l _ => offsetOk l
  | .hSprdraw _ => true
  | .hMarkused i => offsetOk i
  | .hRecompute => true
  | .hSetflip l _ => offsetOk l
  | .hMarkalldirty l => offsetOk l
  | .hLatchscroll l => offsetOk l
  | .hClearused => true
  | .hInvalidate l => offsetOk l
  | .hFill => true
  | .hOutput => true

end Sys2Proof
end

