-- ==== Sys2Proof/Decode.lean ====
section
/-!
DEFINITION. The decoder of 30_encoding.md R125, total on every 64-bit word, and after it the encoder, both
through the seven fields of R110.
-/

namespace Sys2Proof

/-- The reason codes of a refusal (R434). -/
inductive RefuseReason where
  /-- bits 55:48 not zero (code 1) -/
  | rsvdBits
  /-- REGION 0x0 or 0xA-0xD (code 2) -/
  | region
  /-- illegal SUB for the region (code 3) -/
  | sub
  /-- read form with MASK or DATA not zero (code 4) -/
  | readFields
  /-- REGION 0x9 other than the FRAME.RENDER word (code 5) -/
  | frameFields
  /-- harness region with WE = 0 or MASK not zero, or DATA not zero in bank 2 (code 6) -/
  | harnessFields
  /-- a harness argument field that must be zero is not (code 7) -/
  | arg
  deriving DecidableEq, Repr

/-- The code of a reason (R434). -/
def refuseCode (r : RefuseReason) : Nat :=
  match r with
  | .rsvdBits => 1
  | .region => 2
  | .sub => 3
  | .readFields => 4
  | .frameFields => 5
  | .harnessFields => 6
  | .arg => 7

/-- The fields of a transaction word (R110). -/
structure TxnFields where
  region : Nat
  we : Bool
  sub : Nat
  rsvd : Nat
  off : Nat
  mask : Word
  data : Word
  deriving DecidableEq, Repr

/-- The fields of a word: REGION 63:60, WE 59, SUB 58:56, RSVD 55:48, OFFSET 47:32, MASK 31:16, DATA 15:0 (R110). -/
def fieldsOf (w : Txn) : TxnFields :=
  { region := (w.extractLsb' 60 4).toNat
    we := w.getLsbD 59
    sub := (w.extractLsb' 56 3).toNat
    rsvd := (w.extractLsb' 48 8).toNat
    off := (w.extractLsb' 32 16).toNat
    mask := w.extractLsb' 16 16
    data := w.extractLsb' 0 16 }

/-- The write or the read form of a window; a read form with MASK or DATA not zero is refused (R117). -/
def windowForm (f : TxnFields) (wr rd : Instr) : Except RefuseReason Instr :=
  if f.we = true then .ok wr
  else if f.mask = 0 ∧ f.data = 0 then .ok rd
  else .error .readFields

/-- A window with one instance: SUB must be 0 (R111). -/
def singleWindow (f : TxnFields) (wr rd : Instr) : Except RefuseReason Instr :=
  if f.sub = 0 then windowForm f wr rd else .error .sub

/-- Region 0x5: bank 0 and bank 1; SUB 2-7 is refused (R125). -/
def decodePalette (f : TxnFields) : Except RefuseReason Instr :=
  match f.sub with
  | 0 => windowForm f (.palWr0 f.off f.data f.mask) (.palRd0 f.off)
  | 1 => windowForm f (.palWr1 f.off f.data f.mask) (.palRd1 f.off)
  | _ => .error .sub

/-- Region 0x9: the one word of FRAME.RENDER (R120). -/
def decodeFrame (f : TxnFields) : Except RefuseReason Instr :=
  if f.we = true ∧ f.sub = 0 ∧ f.off = 0 ∧ f.mask = 0 ∧ f.data = 0 then .ok .frameRender else .error .frameFields

/-- An argument field that must be zero (R123). -/
def needZero (ok : Bool) (i : Instr) : Except RefuseReason Instr :=
  if ok = true then .ok i else .error .arg

/-- DATA[15:1] = 0: DATA is a one-bit argument (R116). -/
def oneBitData (data : Word) : Bool := data.extractLsb' 1 15 == 0

/-- DATA[0] as the pass of H.DRAW (R121). -/
def layerPassOf (data : Word) : LayerPass := if data.getLsbD 0 = true then .front else .back

/-- DATA[0] as the pass of H.SPRDRAW (R121). -/
def sprPassOf (data : Word) : SprPass := if data.getLsbD 0 = true then .high else .low

/-- Region 0xF, harness bank 1 (R121, R123, R125). -/
def decodeHarness1 (f : TxnFields) : Except RefuseReason Instr :=
  if f.we = true ∧ f.mask = 0 then
    match f.sub with
    | 0 => needZero (f.data == 0) (.hUpdate f.off)
    | 1 => needZero (f.data == 0) (.hRender f.off)
    | 2 => needZero (oneBitData f.data) (.hDraw f.off (layerPassOf f.data))
    | 3 => needZero (f.off == 0 && oneBitData f.data) (.hSprdraw (sprPassOf f.data))
    | 4 => needZero (f.data == 0) (.hMarkused f.off)
    | 5 => needZero (f.off == 0 && f.data == 0) .hRecompute
    | 6 => needZero (oneBitData f.data) (.hSetflip f.off (f.data.getLsbD 0))
    | 7 => needZero (f.data == 0) (.hMarkalldirty f.off)
    | _ => .error .sub
  else .error .harnessFields

/-- Region 0xE, harness bank 2 (R122, R123, R125). -/
def decodeHarness2 (f : TxnFields) : Except RefuseReason Instr :=
  if f.we = true ∧ f.mask = 0 ∧ f.data = 0 then
    match f.sub with
    | 0 => .ok (.hLatchscroll f.off)
    | 1 => needZero (f.off == 0) .hClearused
    | 2 => .ok (.hInvalidate f.off)
    | 3 => needZero (f.off == 0) .hFill
    | 4 => needZero (f.off == 0) .hOutput
    | _ => .error .sub
  else .error .harnessFields

/-- The decoder of R125 over the fields. -/
def decodeFields (f : TxnFields) : Except RefuseReason Instr :=
  if f.rsvd = 0 then
    match f.region with
    | 0x1 => windowForm f (.tileWr f.sub f.off f.data f.mask) (.tileRd f.sub f.off)
    | 0x2 => windowForm f (.rscrWr f.sub f.off f.data f.mask) (.rscrRd f.sub f.off)
    | 0x3 => windowForm f (.cscrWr f.sub f.off f.data f.mask) (.cscrRd f.sub f.off)
    | 0x4 => windowForm f (.ctrlWr f.sub f.off f.data f.mask) (.ctrlRd f.sub f.off)
    | 0x5 => decodePalette f
    | 0x6 => singleWindow f (.sprWr f.off f.data f.mask) (.sprRd f.off)
    | 0x7 => singleWindow f .dmaWr .dmaRd
    | 0x8 => singleWindow f (.protWr f.data f.mask) .protRd
    | 0x9 => decodeFrame f
    | 0xE => decodeHarness2 f
    | 0xF => decodeHarness1 f
    | _ => .error .region
  else .error .rsvdBits

/-- The decoder: a total function from 64-bit words to a transaction or a refusal (R125). -/
def decode (w : Txn) : Except RefuseReason Instr := decodeFields (fieldsOf w)

/-- The host's view of the decoder: the transaction that the `nbits` low bits of `w`, zero above, spell. -/
def decodeTableWord (nbits w : Nat) : Option Instr :=
  match decode (BitVec.ofNat 64 (w % 2 ^ nbits)) with
  | .ok i => some i
  | .error _ => none

/-! ## The encoder -/

/-- A write form (WE = 1). -/
def writeFields (region sub off : Nat) (data mask : Word) : TxnFields :=
  { region := region, we := true, sub := sub, rsvd := 0, off := off, mask := mask, data := data }

/-- A read form (WE = 0, MASK = DATA = 0; R117). -/
def readFields (region sub off : Nat) : TxnFields :=
  { region := region, we := false, sub := sub, rsvd := 0, off := off, mask := 0, data := 0 }

/-- An action of the scheduler or the harness (WE = 1, MASK = 0; R120-R122). -/
def actionFields (region sub off : Nat) (data : Word) : TxnFields := writeFields region sub off data 0

/-- The one-bit DATA argument (R116). -/
def bitData (b : Bool) : Word := if b = true then 1 else 0

/-- The fields of a transaction (R118, R120-R122); a field the transaction ignores is 0 (R140, log 12). -/
def instrFields (i : Instr) : TxnFields :=
  match i with
  | .tileWr l off data mask => writeFields 0x1 l off data mask
  | .tileRd l off => readFields 0x1 l off
  | .rscrWr l off data mask => writeFields 0x2 l off data mask
  | .rscrRd l off => readFields 0x2 l off
  | .cscrWr l off data mask => writeFields 0x3 l off data mask
  | .cscrRd l off => readFields 0x3 l off
  | .ctrlWr b off data mask => writeFields 0x4 b off data mask
  | .ctrlRd b off => readFields 0x4 b off
  | .palWr0 off data mask => writeFields 0x5 0 off data mask
  | .palRd0 off => readFields 0x5 0 off
  | .palWr1 off data mask => writeFields 0x5 1 off data mask
  | .palRd1 off => readFields 0x5 1 off
  | .sprWr off data mask => writeFields 0x6 0 off data mask
  | .sprRd off => readFields 0x6 0 off
  | .dmaWr => writeFields 0x7 0 0 0 0
  | .dmaRd => readFields 0x7 0 0
  | .protWr data mask => writeFields 0x8 0 0 data mask
  | .protRd => readFields 0x8 0 0
  | .frameRender => actionFields 0x9 0 0 0
  | .hUpdate l => actionFields 0xF 0 l 0
  | .hRender l => actionFields 0xF 1 l 0
  | .hDraw l pass => actionFields 0xF 2 l (bitData (pass == .front))
  | .hSprdraw pass => actionFields 0xF 3 0 (bitData (pass == .high))
  | .hMarkused i => actionFields 0xF 4 i 0
  | .hRecompute => actionFields 0xF 5 0 0
  | .hSetflip l f => actionFields 0xF 6 l (bitData f)
  | .hMarkalldirty l => actionFields 0xF 7 l 0
  | .hLatchscroll l => actionFields 0xE 0 l 0
  | .hClearused => actionFields 0xE 1 0 0
  | .hInvalidate l => actionFields 0xE 2 l 0
  | .hFill => actionFields 0xE 3 0 0
  | .hOutput => actionFields 0xE 4 0 0

/-- The word with the given fields, the first-named field highest (R110). -/
def pack (f : TxnFields) : Txn :=
  BitVec.ofNat 4 f.region ++ BitVec.ofBool f.we ++ BitVec.ofNat 3 f.sub ++ BitVec.ofNat 8 f.rsvd
    ++ BitVec.ofNat 16 f.off ++ f.mask ++ f.data

/-- The word of a transaction. -/
def encode (i : Instr) : Txn := pack (instrFields i)

/-- The port that carries a transaction (R118, R446). -/
def portOf (i : Instr) : Port :=
  match (instrFields i).region with
  | 0x9 => .scheduler
  | 0xE => .harness
  | 0xF => .harness
  | _ => .cpuBus

/-- The mnemonic of a transaction (R140). -/
def mnemonicOf (i : Instr) : String :=
  match i with
  | .tileWr _ _ _ _ => "TILE.WR"
  | .tileRd _ _ => "TILE.RD"
  | .rscrWr _ _ _ _ => "RSCR.WR"
  | .rscrRd _ _ => "RSCR.RD"
  | .cscrWr _ _ _ _ => "CSCR.WR"
  | .cscrRd _ _ => "CSCR.RD"
  | .ctrlWr _ _ _ _ => "CTRL.WR"
  | .ctrlRd _ _ => "CTRL.RD"
  | .palWr0 _ _ _ => "PAL.WR"
  | .palRd0 _ => "PAL.RD"
  | .palWr1 _ _ _ => "PAL.WR"
  | .palRd1 _ => "PAL.RD"
  | .sprWr _ _ _ => "SPR.WR"
  | .sprRd _ => "SPR.RD"
  | .dmaWr => "DMA.WR"
  | .dmaRd => "DMA.RD"
  | .protWr _ _ => "PROT.WR"
  | .protRd => "PROT.RD"
  | .frameRender => "FRAME.RENDER"
  | .hUpdate _ => "H.UPDATE"
  | .hRender _ => "H.RENDER"
  | .hDraw _ _ => "H.DRAW"
  | .hSprdraw _ => "H.SPRDRAW"
  | .hMarkused _ => "H.MARKUSED"
  | .hRecompute => "H.RECOMPUTE"
  | .hSetflip _ _ => "H.SETFLIP"
  | .hMarkalldirty _ => "H.MARKALLDIRTY"
  | .hLatchscroll _ => "H.LATCHSCROLL"
  | .hClearused => "H.CLEARUSED"
  | .hInvalidate _ => "H.INVALIDATE"
  | .hFill => "H.FILL"
  | .hOutput => "H.OUTPUT"

end Sys2Proof
end

