-- ==== Sys2Proof/Config.lean ====
section
/-!
DEFINITION. The configuration record of 00_scope.md R7 and R8 as plain data, the default board of R9, and the
constants without a body that stand for what no source fixes.
-/

namespace Sys2Proof

/-! ## Closed sets of names -/

/-- The four tilemap layers, by the roles of R9: the layers a legal board has (NL = 4, R392). -/
inductive LayerId where
  | bg | mida | midb | fg
  deriving DecidableEq, Repr, Inhabited

/-- The scan functions, a closed set (R200). -/
inductive ScanKind where
  | rowMajor | colMajor | fourPage
  deriving DecidableEq, Repr, Inhabited

/-- The attribute decoders, a closed set (R205). -/
inductive DecKind where
  | simple | banked
  deriving DecidableEq, Repr, Inhabited

/-- The two scroll-register slots of a control block (R8, R43). -/
inductive Slot where
  | a | b
  deriving DecidableEq, Repr, Inhabited

/-- The scroll modes (R40, R44). -/
inductive ScrollMode where
  | whole | row | col
  deriving DecidableEq, Repr, Inhabited

/-- PAL_FMT (R260). -/
inductive PalFmt where
  | splitRgB | packedRgbx
  deriving DecidableEq, Repr, Inhabited

/-- SPR_UNUSED_ACTION (R305). -/
inductive UnusedAction where
  | skip | stop
  deriving DecidableEq, Repr, Inhabited

/-- SPR_ORDER (R316). -/
inductive SprOrder where
  | asc | desc
  deriving DecidableEq, Repr, Inhabited

/-- SPR_Y_REFLECT (R310). -/
inductive YReflect where
  | none | reflect240
  deriving DecidableEq, Repr, Inhabited

/-- SPR_CLIP_MODE: IGNORE is the only value the spec defines (R315). -/
inductive ClipMode where
  | ignore
  deriving DecidableEq, Repr, Inhabited

/-- SCROLL_COMBINE (R217, R218). -/
inductive Combine where
  | add | replace
  deriving DecidableEq, Repr, Inhabited

/-- The two byte lanes of a word: bits 15:8 and bits 7:0 (R83, R84). -/
inductive Lane where
  | high | low
  deriving DecidableEq, Repr, Inhabited

/-- How the CPU byte addresses of a span reach the lanes: alternating, the even address high or low (R84), or all on
one lane (a board whose CPU sees the two bytes of a word at separate addresses, R206). -/
inductive LaneRule where
  | evenHigh | evenLow | allHigh | allLow
  deriving DecidableEq, Repr, Inhabited

/-- The arbiter states (R350). -/
inductive ArbState where
  | level0 | level1 | level2 | level3 | level4 | level5 | unknown
  deriving DecidableEq, Repr, Inhabited

/-- The mid-layer orders (R354). -/
inductive MidOrder where
  | ab | ba
  deriving DecidableEq, Repr, Inhabited

/-! ## Records -/

/-- `cfg.LAYER[L]` (R8). -/
structure LayerCfg where
  cols : Nat
  rows : Nat
  cw : Nat
  ch : Nat
  scan : ScanKind
  dec : DecKind
  isOpaque : Bool
  transPen : Pen
  split : Bool
  splitPen : Pen
  palBase : Nat
  gfxBank : Nat
  cb : Nat
  slot : Slot
  deriving DecidableEq, Repr

/-- One entry of PRIO_TABLE: key to (readback, state) (R353). -/
structure PrioEntry where
  key : Word
  rb : Word
  st : ArbState
  deriving DecidableEq, Repr, Inhabited

/-- PRIO_ORDER, a total map from the seven arbiter states (R354). -/
structure PrioOrder where
  level0 : MidOrder
  level1 : MidOrder
  level2 : MidOrder
  level3 : MidOrder
  level4 : MidOrder
  level5 : MidOrder
  unknown : MidOrder
  deriving DecidableEq, Repr

/-- One listed pixel of the tile graphics ROM. -/
structure TilePixel where
  bank : Nat
  tile : Nat
  x : Nat
  y : Nat
  pen : Pen
  deriving DecidableEq, Repr

/-- One listed pixel of the sprite graphics ROM. -/
structure SprPixel where
  tile : Nat
  x : Nat
  y : Nat
  pen : Pen
  deriving DecidableEq, Repr

/-- One range of REGION_BASE: the CPU byte addresses from `base` on decode onto `words` 16-bit words of the window
(region, sub), `stride` byte addresses to a word (R91). DESIGN CHOICE (log 15): the spec gives the map no form; a window
whose two bytes stand at separate addresses (R206) has one range of stride 1 for each lane. -/
structure RegionRange where
  base : Nat
  words : Nat
  stride : Nat
  region : Nat
  sub : Nat
  deriving DecidableEq, Repr, Inhabited

/-- The CPU byte addresses base .. base + size - 1 and their lane rule. -/
structure LaneSpan where
  base : Nat
  size : Nat
  rule : LaneRule
  deriving DecidableEq, Repr, Inhabited

/-- LANE_MAP, the OPEN map from a CPU byte address to a lane (R84). DESIGN CHOICE (log 15): the spec gives it no form; it
is the rule of the first listed span that holds the address, else `rest`, so that every map of finitely many addresses
can be given. -/
structure LaneMap where
  spans : List LaneSpan
  rest : LaneRule
  deriving DecidableEq, Repr, Inhabited

/-- The configuration record `cfg` (R7): every parameter of its table, read by every rule through the record. -/
structure Cfg where
  nl : Nat
  bg : LayerCfg
  mida : LayerCfg
  midb : LayerCfg
  fg : LayerCfg
  ncb : Nat
  cbWords : Nat
  screenW : Nat
  screenH : Nat
  palN : Nat
  palFmt : PalFmt
  sprRamWords : Nat
  sprEntryWords : Nat
  sprN : Nat
  sprPosBits : Nat
  sprUnusedTile : BitVec 12
  sprUnusedAction : UnusedAction
  sprOrder : SprOrder
  sprFlashSkipParity : Bool
  sprYReflect : YReflect
  sprClipMode : ClipMode
  sprPalBase : Nat
  sprTransPen : Pen
  /-- SPR_CELL, width and height of a sprite cell at once. DESIGN CHOICE (log 26): R7 gives the size as "16 x 16" and does
  not say whether it is one number or two; the model holds one side, so that sprite cells are square. -/
  sprCell : Nat
  rowTabN : Nat
  colTabN : Nat
  granBase : Nat
  scrollCombine : Combine
  reservedMode : ScrollMode
  backdrop : Nat
  flipBlock : Nat
  flipBit : Nat
  prioTable : List PrioEntry
  prioOrder : PrioOrder
  tileRom : List TilePixel
  sprRom : List SprPixel
  laneMap : LaneMap
  regionBase : List RegionRange
  deriving DecidableEq, Repr

/-! ## What no source fixes: constants without a body (log 8, 9, 10, 15) -/

/-- The n-th open-bus draw (R440, I1). -/
opaque Config.openBus : Nat → Word

/-- TILE_GFX(bank, tile, x, y) where the ROM image lists no pixel (R211, I6). -/
opaque Config.tileGfx : Nat → Nat → Nat → Nat → Pen

/-- SPR_GFX(tile, x, y) where the ROM image lists no pixel (R312, I6). -/
opaque Config.sprGfx : Nat → Nat → Nat → Pen

/-- PRIO_RB_F1, the readback value of key 0x00F1 (R355, I9). -/
opaque Config.prioRbF1 : Word

/-- The entries of PRIO_TABLE other than the one for 0x00F1 (R358, I9). -/
opaque Config.prioRest : List PrioEntry

/-- PRIO_ORDER (R354, I9). -/
opaque Config.prioOrder : ArbState → MidOrder

/-- REGION_BASE (R91, I7). -/
opaque Config.regionBase : List RegionRange

/-! ## The default board (R7, R9) -/

/-- Layer BG of R9. -/
def Config.bgLayer : LayerCfg :=
  { cols := 64, rows := 64, cw := 16, ch := 16, scan := .fourPage, dec := .banked, isOpaque := true, transPen := 0,
    split := true, splitPen := 8, palBase := 0x300, gfxBank := 0, cb := 0, slot := .a }

/-- Layer MIDA of R9. -/
def Config.midaLayer : LayerCfg :=
  { cols := 64, rows := 32, cw := 16, ch := 16, scan := .rowMajor, dec := .simple, isOpaque := false, transPen := 0,
    split := false, splitPen := 8, palBase := 0x100, gfxBank := 1, cb := 0, slot := .b }

/-- Layer MIDB of R9. -/
def Config.midbLayer : LayerCfg :=
  { cols := 64, rows := 32, cw := 16, ch := 16, scan := .colMajor, dec := .simple, isOpaque := false, transPen := 0,
    split := false, splitPen := 8, palBase := 0x200, gfxBank := 2, cb := 1, slot := .a }

/-- Layer FG of R9. -/
def Config.fgLayer : LayerCfg :=
  { cols := 32, rows := 32, cw := 8, ch := 8, scan := .rowMajor, dec := .simple, isOpaque := false, transPen := 0,
    split := false, splitPen := 8, palBase := 0x000, gfxBank := 3, cb := 1, slot := .b }

/-- The default board: every default of R7 and the layers of R9; the OPEN parameters are the constants above. -/
def Config.defaultBoard : Cfg :=
  { nl := 4, bg := Config.bgLayer, mida := Config.midaLayer, midb := Config.midbLayer, fg := Config.fgLayer
    ncb := 2, cbWords := 16, screenW := 256, screenH := 240, palN := 2048, palFmt := .splitRgB
    sprRamWords := 0x400, sprEntryWords := 4, sprN := 256, sprPosBits := 9, sprUnusedTile := 0x000, sprUnusedAction := .skip
    sprOrder := .desc, sprFlashSkipParity := true, sprYReflect := .none, sprClipMode := .ignore
    sprPalBase := 0x400, sprTransPen := 0, sprCell := 16, rowTabN := 512, colTabN := 512, granBase := 0
    scrollCombine := .add, reservedMode := .whole, backdrop := 0, flipBlock := 0, flipBit := 7
    prioTable := { key := 0x00F1, rb := Config.prioRbF1, st := .level1 } :: Config.prioRest
    prioOrder :=
      { level0 := Config.prioOrder .level0, level1 := Config.prioOrder .level1, level2 := Config.prioOrder .level2,
        level3 := Config.prioOrder .level3, level4 := Config.prioOrder .level4, level5 := Config.prioOrder .level5,
        unknown := Config.prioOrder .unknown }
    tileRom := [], sprRom := [], laneMap := { spans := [], rest := .evenHigh }, regionBase := Config.regionBase }

/-- `cfg.LAYER[L]`. -/
def Cfg.layer (c : Cfg) (l : LayerId) : LayerCfg :=
  match l with
  | .bg => c.bg
  | .mida => c.mida
  | .midb => c.midb
  | .fg => c.fg

end Sys2Proof
end

