-- ==== Sys2Proof/Machine/State.lean ====
section
/-!
DEFINITION. The state of the block (10_state.md) as plain data, the reasons a step can stop, and the state right
after reset (70_reset_and_hazards.md R470).
-/

namespace Sys2Proof.Machine

/-- The harness micro-operations that take a checked argument: the mnemonics a BAD_ARG record can name (R433). -/
inductive HarnessOp where
  | hUpdate | hRender | hDraw | hSetflip | hMarkalldirty | hLatchscroll | hInvalidate | hMarkused
  deriving DecidableEq, Repr

/-- The fault record of R62. The spec gives the entry of a fault (R430): the block records it in State.fault and
halts, so a fault is a NEXT state of the model, and no step answers Host's `fault` outcome (log 14). -/
inductive Fault where
  /-- NO_WINDOW, code 1: raised by a CPU bus transaction that names a window instance the configuration lacks;
  info is (REGION, SUB) (R432). Safe: it is the spec's own. -/
  | noWindow (region sub : Nat)
  /-- BAD_ARG, code 2: raised by a harness micro-operation whose argument is outside the configuration; info is
  (mnemonic, argument) (R433). Safe: it is the spec's own. -/
  | badArg (op : HarnessOp) (arg : Nat)
  deriving DecidableEq, Repr

/-- Why the model refuses a step. -/
inductive Refusal where
  /-- An instruction without a meaning; no arm of `exec` answers it. Safe. -/
  | notModelled (mnemonic : String)
  /-- Raised by `step` alone, when the configuration record is not a legal configuration of the block:
  93_implementation_defined.md I30, "refuse the configuration" (log 4). Safe. -/
  | illegalBoard
  deriving DecidableEq, Repr

/-- Decoded tile info (R34, R205). -/
structure TileInfo where
  tileIndex : BitVec 12
  colorGroup : BitVec 4
  flipX : Bool
  flipY : Bool
  priorityBit : Bool
  deriving DecidableEq, Repr

/-- The split class of a pixel (R36, R213). -/
inductive PixClass where
  | back | front
  deriving DecidableEq, Repr

/-- A pixel cache entry (pen, cls, idx) (R36). -/
structure Pixel where
  pen : Pen
  cls : PixClass
  idx : Nat
  deriving DecidableEq, Repr

/-- The latched scroll state of a layer (R40). -/
structure Scroll where
  mode : ScrollMode
  sx : Word
  sy : Word
  gran : Nat
  deriving DecidableEq, Repr

/-- An RGB888 colour (R14). -/
structure Rgb where
  r : BitVec 8
  g : BitVec 8
  b : BitVec 8
  deriving DecidableEq, Repr

/-- What the block answers to a transaction (R126). -/
inductive Response where
  /-- nothing -/
  | silent
  /-- a value on the read-data bus -/
  | data (w : Word)
  /-- the frame OUT, to the scheduler (R391): `State.out` as it stands -/
  | frame
  deriving DecidableEq, Repr

/-- The state of one layer (10_state.md section 2). PCACHE[L][lx][ly] is held at index ly * LW + lx. -/
structure LayerState where
  /-- TILE[L] (R32) -/
  tile : Store Word
  /-- DIRTY[L] (R33) -/
  dirty : Store Bool
  /-- INFO[L] (R34) -/
  info : Store TileInfo
  /-- STALE[L] (R35) -/
  stale : Store Bool
  /-- PCACHE[L] (R36) -/
  pcache : Store Pixel
  /-- ROWTAB[L] (R37) -/
  rowtab : Store Word
  /-- COLTAB[L] (R38) -/
  coltab : Store Word
  /-- FLIP[L] (R39) -/
  flip : Bool
  /-- SCR[L] (R40) -/
  scr : Scroll
  deriving DecidableEq, Repr

/-- The state of the block. CR[b][w] is held at index CB_WORDS * b + w; COMP[x][y] and OUT[x][y] at y * SCREEN_W + x. -/
structure State where
  /-- cfg (R7), read by every rule and written by none; the model's own field (log 4) -/
  cfg : Cfg
  /-- layer 0, BG -/
  bg : LayerState
  /-- layer 1, MIDA -/
  mida : LayerState
  /-- layer 2, MIDB -/
  midb : LayerState
  /-- layer 3, FG -/
  fg : LayerState
  /-- CR (R41) -/
  cr : Store Word
  /-- PAL0 (R47) -/
  pal0 : Store Word
  /-- PAL1 (R48) -/
  pal1 : Store Word
  /-- PAL_DIRTY (R49) -/
  palDirty : Bool
  /-- USED (R50) -/
  used : Store Bool
  /-- USED_PREV (R51) -/
  usedPrev : Store Bool
  /-- PUB (R52) -/
  pub : Store Rgb
  /-- SPRRAM (R53) -/
  sprram : Store Word
  /-- SNAP (R54) -/
  snap : Store Word
  /-- PSTATE (R55) -/
  pstate : ArbState
  /-- PREADBACK (R56) -/
  preadback : Word
  /-- PLATCH (R57) -/
  platch : Word
  /-- FLIP_PREV (R58) -/
  flipPrev : Bool
  /-- FRAME_CNT (R59) -/
  frameCnt : BitVec 32
  /-- COMP (R60) -/
  comp : Store Nat
  /-- OUT (R61) -/
  out : Store Rgb
  /-- FAULT (R62) -/
  fault : Option Fault
  /-- REFUSED (R63) -/
  refused : Bool
  /-- transaction words not yet taken, oldest first (R94, R110); the model's own field (log 1) -/
  port : List Txn
  /-- the response of the last transaction performed (R126); the model's own field (log 11) -/
  resp : Response
  /-- how many open-bus values were drawn (R440); the model's own field (log 8) -/
  draws : Nat
  deriving DecidableEq, Repr

/-- A layer after reset: DIRTY and STALE 1 (an unlisted flag of theirs reads 1), FLIP 0, the rest as log 6 and
log 7 name it (R470). -/
def LayerState.reset : LayerState :=
  { tile := [], dirty := [], info := [], stale := [], pcache := [], rowtab := [], coltab := [], flip := false
    scr := { mode := .whole, sx := 0, sy := 0, gran := 1 } }

/-- The machine after reset (R470), on the default board. -/
def State.reset : State :=
  { cfg := Config.defaultBoard
    bg := LayerState.reset, mida := LayerState.reset, midb := LayerState.reset, fg := LayerState.reset
    cr := [], pal0 := [], pal1 := [], palDirty := true, used := [], usedPrev := [], pub := []
    sprram := [], snap := [], pstate := .level0, preadback := 0x0000, platch := 0x0000
    flipPrev := false, frameCnt := 0, comp := [], out := [], fault := none, refused := false
    port := [], resp := .silent, draws := 0 }

/-- The state of layer `l`. -/
def State.layer (s : State) (l : LayerId) : LayerState :=
  match l with
  | .bg => s.bg
  | .mida => s.mida
  | .midb => s.midb
  | .fg => s.fg

/-- The state with layer `l` replaced. -/
def State.setLayer (s : State) (l : LayerId) (x : LayerState) : State :=
  { s with
    bg := if l = .bg then x else s.bg
    mida := if l = .mida then x else s.mida
    midb := if l = .midb then x else s.midb
    fg := if l = .fg then x else s.fg }

end Sys2Proof.Machine
end

