-- ==== Sys2Proof/Machine/Ops.lean ====
section
/-!
DEFINITION. The named operations over storage and registers: sparse arrays in one canonical form, the reads of
every array of the state, responses, open-bus draws, and the one operation that raises a fault beside the one that
refuses a word (60_exceptions.md R430, R434).
-/

namespace Sys2Proof.Machine

/-! ## Sparse arrays -/

/-- Element `k`: the value listed for it, else `d`. -/
def Store.read {α : Type} (d : α) (m : Store α) (k : Nat) : α :=
  match m with
  | [] => d
  | (a, v) :: t => if a = k then v else Store.read d t k

/-- The array without any entry for `k`. -/
def Store.erase {α : Type} (m : Store α) (k : Nat) : Store α :=
  match m with
  | [] => []
  | (a, v) :: t => if a = k then Store.erase t k else (a, v) :: Store.erase t k

/-- Put (k, v) before the first entry of a greater index. -/
def Store.insert {α : Type} (m : Store α) (k : Nat) (v : α) : Store α :=
  match m with
  | [] => [(k, v)]
  | (a, x) :: t => if k < a then (k, v) :: (a, x) :: t else (a, x) :: Store.insert t k v

/-- `S[k] <- v` (R12), keeping the canonical form: the value an unlisted index reads as is not listed. -/
def Store.write {α : Type} [DecidableEq α] (d : α) (m : Store α) (k : Nat) (v : α) : Store α :=
  if v = d then Store.erase m k else Store.insert (Store.erase m k) k v

/-- The writes of a list, in order. -/
def Store.writeAll {α : Type} [DecidableEq α] (d : α) (m : Store α) (ws : List (Nat × α)) : Store α :=
  ws.foldl (fun acc w => Store.write d acc w.1 w.2) m

/-- The array with element `k` equal to `f k` for every k < n: a loop `for k in 0..n-1: S[k] <- f(k)`. -/
def Store.tabulate {α : Type} [DecidableEq α] (d : α) (n : Nat) (f : Nat → α) : Store α :=
  (List.range n).filterMap fun k => let v := f k; if v = d then none else some (k, v)

/-- From index `lo` on: indexes strictly rising and below `n`, no entry equal to `d`. -/
def Store.wfFrom {α : Type} [DecidableEq α] (d : α) (n lo : Nat) (m : Store α) : Bool :=
  match m with
  | [] => true
  | (a, v) :: t => decide (lo ≤ a) && decide (a < n) && decide (v ≠ d) && Store.wfFrom d n (a + 1) t

/-- The canonical form of an array of `n` elements whose unlisted elements read `d`. -/
def Store.wf {α : Type} [DecidableEq α] (d : α) (n : Nat) (m : Store α) : Bool := Store.wfFrom d n 0 m

/-! ## What an unlisted element reads as: the reset contents (R470, log 6, log 7) -/

/-- TILE, ROWTAB, COLTAB, CR, PAL0, PAL1, SPRRAM, SNAP: DESIGN CHOICE 0 (log 6). -/
def unlistedWord : Word := 0

/-- DIRTY and STALE: 1 (R33, R35). -/
def unlistedMark : Bool := true

/-- USED and USED_PREV: 0 (R50, R51). -/
def unlistedUse : Bool := false

/-- INFO: DESIGN CHOICE (log 7). -/
def unlistedInfo : TileInfo := { tileIndex := 0, colorGroup := 0, flipX := false, flipY := false, priorityBit := false }

/-- PCACHE: DESIGN CHOICE (log 7). -/
def unlistedPixel : Pixel := { pen := 0, cls := .back, idx := 0 }

/-- COMP: DESIGN CHOICE (log 7). -/
def unlistedIndex : Nat := 0

/-- PUB and OUT: DESIGN CHOICE (log 7). -/
def unlistedRgb : Rgb := { r := 0, g := 0, b := 0 }

/-! ## Layers -/

/-- The layers 0..NL-1 in the fixed bank order 0 (BG), 1 (MIDA), 2 (MIDB), 3 (FG) (R9, R383). -/
def layersOf (c : Cfg) : List LayerId := [LayerId.bg, .mida, .midb, .fg].take c.nl

/-- The layer of a number: none for L >= NL (R9, R119). -/
def layerOf (c : Cfg) (l : Nat) : Option LayerId := (layersOf c)[l]?

/-- The number of cells, COLS * ROWS. -/
def cellsOf (c : LayerCfg) : Nat := c.cols * c.rows

/-- LW = COLS * CW (R8). -/
def widthOf (c : LayerCfg) : Nat := c.cols * c.cw

/-- LH = ROWS * CH (R8). -/
def heightOf (c : LayerCfg) : Nat := c.rows * c.ch

/-- An operation on every layer, in bank order: `for L in 0..NL-1`. -/
def forLayers (f : LayerId → State → State) (s : State) : State := (layersOf s.cfg).foldl (fun acc l => f l acc) s

/-! ## The reads of every array -/

/-- TILE[L][o] (R32). -/
def tileAt (x : LayerState) (o : Nat) : Word := Store.read unlistedWord x.tile o

/-- DIRTY[L][o] (R33). -/
def dirtyAt (x : LayerState) (o : Nat) : Bool := Store.read unlistedMark x.dirty o

/-- INFO[L][o] (R34). -/
def infoAt (x : LayerState) (o : Nat) : TileInfo := Store.read unlistedInfo x.info o

/-- STALE[L][o] (R35). -/
def staleAt (x : LayerState) (o : Nat) : Bool := Store.read unlistedMark x.stale o

/-- PCACHE[L][lx][ly] (R36). -/
def pcacheAt (c : LayerCfg) (x : LayerState) (lx ly : Nat) : Pixel :=
  Store.read unlistedPixel x.pcache (ly * widthOf c + lx)

/-- ROWTAB[L][e] (R37). -/
def rowtabAt (x : LayerState) (e : Nat) : Word := Store.read unlistedWord x.rowtab e

/-- COLTAB[L][e] (R38). -/
def coltabAt (x : LayerState) (e : Nat) : Word := Store.read unlistedWord x.coltab e

/-- The index of CR[b][w]. -/
def crKey (c : Cfg) (b w : Nat) : Nat := c.cbWords * b + w

/-- CR[b][w] (R41). -/
def crAt (s : State) (b w : Nat) : Word := Store.read unlistedWord s.cr (crKey s.cfg b w)

/-- PAL0[i] (R47). -/
def pal0At (s : State) (i : Nat) : Word := Store.read unlistedWord s.pal0 i

/-- PAL1[i] (R48). -/
def pal1At (s : State) (i : Nat) : Word := Store.read unlistedWord s.pal1 i

/-- USED[i] (R50). -/
def usedAt (s : State) (i : Nat) : Bool := Store.read unlistedUse s.used i

/-- USED_PREV[i] (R51). -/
def usedPrevAt (s : State) (i : Nat) : Bool := Store.read unlistedUse s.usedPrev i

/-- PUB[i] (R52). -/
def pubAt (s : State) (i : Nat) : Rgb := Store.read unlistedRgb s.pub i

/-- SPRRAM[w] (R53). -/
def sprramAt (s : State) (w : Nat) : Word := Store.read unlistedWord s.sprram w

/-- SNAP[w] (R54). -/
def snapAt (s : State) (w : Nat) : Word := Store.read unlistedWord s.snap w

/-- The index of screen pixel (x, y). -/
def screenKey (c : Cfg) (x y : Nat) : Nat := y * c.screenW + x

/-- The number of screen pixels. -/
def screenPixels (c : Cfg) : Nat := c.screenW * c.screenH

/-- COMP[x][y] (R60). -/
def compAt (s : State) (x y : Nat) : Nat := Store.read unlistedIndex s.comp (screenKey s.cfg x y)

/-- OUT[x][y] (R61). -/
def outAt (s : State) (x y : Nat) : Rgb := Store.read unlistedRgb s.out (screenKey s.cfg x y)

/-! ## Responses, faults, refusals, halting -/

/-- The transaction answers `r` (R126). -/
def respond (r : Response) (s : State) : State := { s with resp := r }

/-- `return v`: put v on the read-data bus (R13). -/
def returnData (v : Word) (s : State) : State := respond (.data v) s

/-- `return draw u16`: a fresh free value on the read-data bus (R13, R440, log 8). -/
def returnDraw (s : State) : State := { s with resp := .data (Config.openBus s.draws), draws := s.draws + 1 }

/-- `raise Fault(kind, info)`: record it, no other effect, no response (R430). -/
def raiseFault (f : Fault) (s : State) : State := { s with fault := some f, resp := .silent }

/-- The code of a fault kind (R432, R433). -/
def faultCode (f : Fault) : Nat :=
  match f with
  | .noWindow _ _ => 1
  | .badArg _ _ => 2

/-- A refused word: REFUSED <- 1, nothing else, no response (R131, R434). -/
def refuseWord (s : State) : State := { s with refused := true, resp := .silent }

/-- The block is halted while FAULT is not none or REFUSED = 1 (R431). Only reset leaves this (R444). -/
def halted (s : State) : Bool := s.fault.isSome || s.refused

/-- A transaction is performed only when the block is not halted; a halted block does nothing (R431). -/
def transact (f : State → State) (s : State) : Host.Outcome State Fault Refusal :=
  .next (if halted s then s else f s)

end Sys2Proof.Machine
end

