-- ==== Sys2Proof/Machine/Board.lean ====
section
/-!
DEFINITION. The legal configurations of the block (R7, R8, R392, 93_implementation_defined.md I30) and the reads
of its tables.
-/

namespace Sys2Proof.Machine

/-- A power of two. -/
def isPowerOfTwo (n : Nat) : Bool := n != 0 && (n &&& (n - 1)) == 0

/-- CW and CH are 8 or 16 (R8). -/
def cellSideOk (n : Nat) : Bool := n == 8 || n == 16

/-- FOUR_PAGE requires COLS = ROWS = 64 (R8, R203). -/
def scanOk (c : LayerCfg) : Bool :=
  match c.scan with
  | .fourPage => c.cols == 64 && c.rows == 64
  | .rowMajor => true
  | .colMajor => true

/-- The legal values of a layer record (R8). -/
def layerLegal (b : Cfg) (c : LayerCfg) : Bool :=
  isPowerOfTwo c.cols && isPowerOfTwo c.rows && decide (c.cols * c.rows ≤ 65536) && cellSideOk c.cw && cellSideOk c.ch
    && scanOk c && c.splitPen != 0 && decide (c.palBase < b.palN) && c.palBase % 16 == 0 && decide (c.cb < b.ncb)

/-- PRIO_TABLE[key]: the entry of the key, none outside the domain (R353). -/
def prioLookup (t : List PrioEntry) (key : Word) : Option PrioEntry :=
  match t with
  | [] => none
  | e :: rest => if e.key = key then some e else prioLookup rest key

/-- PRIO_TABLE[0x00F1] = (PRIO_RB_F1, LEVEL1): the entry every model must contain (R355). -/
def prioTableLegal (t : List PrioEntry) : Bool :=
  match prioLookup t 0x00F1 with
  | some e => e.st == .level1
  | none => false

/-- The priority table of the test configuration TC (R359). -/
def tcPrioTable : List PrioEntry :=
  [{ key := 0x00F1, rb := 0x00A5, st := .level1 }, { key := 0x00F0, rb := 0x0055, st := .level0 }]

/-- PRIO_ORDER_TC: BA at LEVEL1, AB at every other state (R359). -/
def tcPrioOrder : PrioOrder :=
  { level0 := .ab, level1 := .ba, level2 := .ab, level3 := .ab, level4 := .ab, level5 := .ab, unknown := .ab }

/-- A board under the test configuration TC (R359), which the spec's vectors use and which is a claim about no game: no
other definition of the model reads it, and the default board leaves both parameters free. -/
def withTestConfiguration (c : Cfg) : Cfg := { c with prioTable := tcPrioTable, prioOrder := tcPrioOrder }

/-- PRIO_ORDER(state) (R354). -/
def prioOrderAt (p : PrioOrder) (st : ArbState) : MidOrder :=
  match st with
  | .level0 => p.level0
  | .level1 => p.level1
  | .level2 => p.level2
  | .level3 => p.level3
  | .level4 => p.level4
  | .level5 => p.level5
  | .unknown => p.unknown

/-- The sprite parameters' legal values (R7, R300, R305, R306; log 19): an entry has the words W0..W3. -/
def spriteLegal (c : Cfg) : Bool :=
  decide (4 ≤ c.sprEntryWords) && decide (0 < c.sprCell) && c.sprRamWords == c.sprEntryWords * c.sprN
    && decide (0 < c.sprN) && (c.sprPosBits == 9 || c.sprPosBits == 10)
    && (c.sprUnusedTile == 0x000 || c.sprUnusedTile == 0xFFF)

/-- NL = 4 (R392); a control block has the words 0..6 that R42, R43 and R44 name (log 19). -/
def countsLegal (c : Cfg) : Bool := c.nl == 4 && decide (7 ≤ c.cbWords)

/-- A legal configuration of the block (R7, R8, I30; log 4, log 19). -/
def boardLegal (c : Cfg) : Bool :=
  countsLegal c && layerLegal c c.bg && layerLegal c c.mida && layerLegal c c.midb && layerLegal c c.fg && spriteLegal c
    && decide (0 < c.rowTabN) && decide (0 < c.colTabN) && decide (c.granBase ≤ 2) && decide (c.backdrop < c.palN)
    && decide (c.flipBlock < c.ncb) && decide (c.flipBit < 16) && prioTableLegal c.prioTable

/-- The listed pen of a tile graphics pixel. -/
def tileRomPen (rom : List TilePixel) (bank tile x y : Nat) : Option Pen :=
  match rom with
  | [] => none
  | p :: rest =>
    if p.bank = bank ∧ p.tile = tile ∧ p.x = x ∧ p.y = y then some p.pen else tileRomPen rest bank tile x y

/-- TILE_GFX(bank, tile, x, y): the pen the ROM image lists, else a free pen (R211, log 9). -/
def tileGfx (c : Cfg) (bank tile x y : Nat) : Pen :=
  match tileRomPen c.tileRom bank tile x y with
  | some p => p
  | none => Config.tileGfx bank tile x y

/-- The listed pen of a sprite graphics pixel. -/
def sprRomPen (rom : List SprPixel) (tile x y : Nat) : Option Pen :=
  match rom with
  | [] => none
  | p :: rest => if p.tile = tile ∧ p.x = x ∧ p.y = y then some p.pen else sprRomPen rest tile x y

/-- SPR_GFX(tile, x, y): the pen the ROM image lists, else a free pen (R312, log 9). -/
def sprGfx (c : Cfg) (tile x y : Nat) : Pen :=
  match sprRomPen c.sprRom tile x y with
  | some p => p
  | none => Config.sprGfx tile x y

end Sys2Proof.Machine
end

