-- ==== Sys2Proof/Machine/Operands.lean ====
section
/-!
DEFINITION. The operand forms: the write merge (R12, R83), the folded offset (R82), the window instance and the
harness argument with their checks (R432, R433), bit fields, and the lanes of a byte access (R84, R85).
-/

namespace Sys2Proof.Machine

/-- `merge(old, data, mask) = (old & ~mask) | (data & mask)` (R12, R83). -/
def merge (old data mask : Word) : Word := (old &&& ~~~mask) ||| (data &&& mask)

/-- The folded offset `off mod SIZE` (R82). -/
def fold (off size : Nat) : Nat := off % size

/-- `v[hi:lo]` as an unsigned number, by its low bit and width (R10). -/
def field (v : Word) (lo width : Nat) : Nat := (v.extractLsb' lo width).toNat

/-- `sext_N` of the low N bits (R11). -/
def sext (n : Nat) (v : Word) : Int := (v.extractLsb' 0 n).toInt

/-- A window instance named by a layer: L >= NL raises NO_WINDOW (R432). -/
def withLayerWindow (region l : Nat) (f : LayerId → State → State) (s : State) : State :=
  match layerOf s.cfg l with
  | some x => f x s
  | none => raiseFault (.noWindow region l) s

/-- A window instance named by a control block: b >= NCB raises NO_WINDOW (R432). -/
def withBlockWindow (region b : Nat) (f : State → State) (s : State) : State :=
  if b < s.cfg.ncb then f s else raiseFault (.noWindow region b) s

/-- Palette bank 1: absent in PACKED_RGBX, where it raises NO_WINDOW (R160, R161, R432). -/
def withBank1 (f : State → State) (s : State) : State :=
  match s.cfg.palFmt with
  | .splitRgB => f s
  | .packedRgbx => raiseFault (.noWindow 0x5 1) s

/-- A harness micro-operation's layer argument: L >= NL raises BAD_ARG (R433). -/
def withLayerArg (op : HarnessOp) (l : Nat) (f : LayerId → State → State) (s : State) : State :=
  match layerOf s.cfg l with
  | some x => f x s
  | none => raiseFault (.badArg op l) s

/-- H.MARKUSED's palette index: i >= PAL_N raises BAD_ARG (R433). -/
def withPaletteArg (op : HarnessOp) (i : Nat) (f : State → State) (s : State) : State :=
  if i < s.cfg.palN then f s else raiseFault (.badArg op i) s

/-- The high-lane mask, bits 15:8 (R83). -/
def highLane : Word := 0xFF00

/-- The low-lane mask, bits 7:0 (R83). -/
def lowLane : Word := 0x00FF

/-- The bits of a lane (R83). -/
def maskOfLane (l : Lane) : Word :=
  match l with
  | .high => highLane
  | .low => lowLane

/-- The byte of a word on a lane (R84). -/
def byteOfLane (l : Lane) (w : Word) : BitVec 8 :=
  match l with
  | .high => w.extractLsb' 8 8
  | .low => w.extractLsb' 0 8

/-- The lane of a CPU byte address under one rule (R84, R206). -/
def laneOfRule (r : LaneRule) (byteAddr : Nat) : Lane :=
  match r with
  | .evenHigh => if byteAddr % 2 = 0 then .high else .low
  | .evenLow => if byteAddr % 2 = 0 then .low else .high
  | .allHigh => .high
  | .allLow => .low

/-- The rule of a CPU byte address: that of the first span that holds it, else `rest`. -/
def laneRuleAt (spans : List LaneSpan) (rest : LaneRule) (byteAddr : Nat) : LaneRule :=
  match spans with
  | [] => rest
  | p :: t => if p.base ≤ byteAddr ∧ byteAddr < p.base + p.size then p.rule else laneRuleAt t rest byteAddr

/-- LANE_MAP: the lane of a CPU byte address (R84). -/
def laneAt (m : LaneMap) (byteAddr : Nat) : Lane := laneOfRule (laneRuleAt m.spans m.rest byteAddr) byteAddr

/-- The lane mask of a CPU byte address (R84). -/
def laneMask (m : LaneMap) (byteAddr : Nat) : Word := maskOfLane (laneAt m byteAddr)

/-- A byte on the lanes it is written through: both, since the mask keeps one (R85). -/
def byteOnLanes (v : BitVec 8) : Word := v ++ v

/-- The byte a CPU selects from a read word (R85). -/
def laneOf (m : LaneMap) (byteAddr : Nat) (w : Word) : BitVec 8 := byteOfLane (laneAt m byteAddr) w

end Sys2Proof.Machine
end

