-- ==== Sys2Proof/Machine/Flags.lean ====
section
/-!
DEFINITION. The one-bit flags of R64: when each is set, cleared and compared. The block has no condition codes.
-/

namespace Sys2Proof.Machine

/-- `new != old`: the test on the raw merged word that sets DIRTY and PAL_DIRTY (R150, R158, R160; C10). -/
def wordChanges (old new : Word) : Bool := decide (new ≠ old)

/-- DIRTY[L][o] after a tile write: set on a change, else kept (R33, R150). -/
def dirtyOnChange (x : LayerState) (o : Nat) (new : Word) : Store Bool :=
  if wordChanges (tileAt x o) new then Store.write unlistedMark x.dirty o true else x.dirty

/-- PAL_DIRTY after a palette write: set on a change, else kept (R49). -/
def palDirtyOnChange (old new : Word) (flag : Bool) : Bool := wordChanges old new || flag

/-- Every mark of an array of `n` cells set: DIRTY or STALE all 1 (R230, R275). -/
def allMarked (n : Nat) : Store Bool := Store.tabulate unlistedMark n fun _ => true

/-- Every mark of an array of `n` cells cleared (R228, R229). -/
def noneMarked (n : Nat) : Store Bool := Store.tabulate unlistedMark n fun _ => false

/-- USED all 0 (R384, R396). -/
def noneUsed (n : Nat) : Store Bool := Store.tabulate unlistedUse n fun _ => false

/-- MARK_USED of every index of a list, in order (R270). -/
def markAllUsed (m : Store Bool) (is : List Nat) : Store Bool := Store.writeAll unlistedUse m (is.map fun i => (i, true))

/-- USED differs from USED_PREV in some entry (R273). -/
def usedDiffers (s : State) : Bool := (List.range s.cfg.palN).any fun i => usedAt s i != usedPrevAt s i

/-- The frame parity, FRAME_CNT[0] (R59, R389). -/
def frameParity (s : State) : Bool := s.frameCnt.getLsbD 0

/-- The flip-screen bit as polled: CR[FLIP_BLOCK][0][FLIP_BIT] (R42, R381). -/
def flipBit (s : State) : Bool := (crAt s s.cfg.flipBlock 0).getLsbD s.cfg.flipBit

end Sys2Proof.Machine
end

