-- ==== Sys2Proof/Machine/Arbiter.lean ====
section
/-!
DEFINITION. The priority arbiter (44_priority_arbiter.md): the literal lookup keyed by the merged value of the
protection/priority address.
-/

namespace Sys2Proof.Machine

/-- The arbiter's transition: PLATCH takes the key; a key of the table sets PREADBACK and PSTATE, any other leaves
them (R351, R356). -/
def presentKey (key : Word) (s : State) : State :=
  let hit := prioLookup s.cfg.prioTable key
  { s with
    platch := key
    preadback := match hit with
      | some e => e.rb
      | none => s.preadback
    pstate := match hit with
      | some e => e.st
      | none => s.pstate }

/-- PROT.WR (R351): the key of a partial write takes its other bits from PLATCH. -/
def execProtWr (data mask : Word) (s : State) : Host.Outcome State Fault Refusal :=
  transact (fun t => respond .silent (presentKey (merge t.platch data mask) t)) s

/-- PROT.RD (R352): no side effect. -/
def execProtRd (s : State) : Host.Outcome State Fault Refusal :=
  transact (fun t => returnData t.preadback t) s

end Sys2Proof.Machine
end

