-- ==== Sys2Proof/Machine/Bus.lean ====
section
/-!
DEFINITION. The CPU bus transactions of 40_bus_transactions.md (R150-R165).
-/

namespace Sys2Proof.Machine

/-! ## Shared window operations -/

/-- Write tile word `o` of layer `l`: the merged word and, on a change, its DIRTY flag (R150). -/
def writeTile (l : LayerId) (o : Nat) (data mask : Word) (s : State) : State :=
  let x := s.layer l
  let new := merge (tileAt x o) data mask
  s.setLayer l { x with
    tile := if wordChanges (tileAt x o) new then Store.write unlistedWord x.tile o new else x.tile
    dirty := dirtyOnChange x o new }

/-- Write row-scroll entry `e` of layer `l` (R152). -/
def writeRowtab (l : LayerId) (e : Nat) (data mask : Word) (s : State) : State :=
  let x := s.layer l
  s.setLayer l { x with rowtab := Store.write unlistedWord x.rowtab e (merge (rowtabAt x e) data mask) }

/-- Write column-scroll entry `e` of layer `l` (R154). -/
def writeColtab (l : LayerId) (e : Nat) (data mask : Word) (s : State) : State :=
  let x := s.layer l
  s.setLayer l { x with coltab := Store.write unlistedWord x.coltab e (merge (coltabAt x e) data mask) }

/-- Write control word CR[b][w] (R156). -/
def writeCr (b w : Nat) (data mask : Word) (s : State) : State :=
  { s with cr := Store.write unlistedWord s.cr (crKey s.cfg b w) (merge (crAt s b w) data mask) }

/-- Write palette word `i` of bank 0: PAL0[i] and PAL_DIRTY on a change (R158). -/
def writePal0 (i : Nat) (data mask : Word) (s : State) : State :=
  let new := merge (pal0At s i) data mask
  { s with
    pal0 := if wordChanges (pal0At s i) new then Store.write unlistedWord s.pal0 i new else s.pal0
    palDirty := palDirtyOnChange (pal0At s i) new s.palDirty }

/-- Write palette word `i` of bank 1: PAL1[i] and PAL_DIRTY on a change (R160). -/
def writePal1 (i : Nat) (data mask : Word) (s : State) : State :=
  let new := merge (pal1At s i) data mask
  { s with
    pal1 := if wordChanges (pal1At s i) new then Store.write unlistedWord s.pal1 i new else s.pal1
    palDirty := palDirtyOnChange (pal1At s i) new s.palDirty }

/-- Write word `w` of live sprite RAM (R162). -/
def writeSprram (w : Nat) (data mask : Word) (s : State) : State :=
  { s with sprram := Store.write unlistedWord s.sprram w (merge (sprramAt s w) data mask) }

/-- The sprite DMA: SNAP[w] <- SPRRAM[w] for every w below SPR_RAM_WORDS (R164). -/
def copySnapshot (s : State) : State :=
  { s with snap := Store.tabulate unlistedWord s.cfg.sprRamWords fun w => sprramAt s w }

/-! ## The transactions -/

/-- TILE.WR (R150). -/
def execTileWr (l off : Nat) (data mask : Word) (s : State) : Host.Outcome State Fault Refusal :=
  transact (withLayerWindow 0x1 l fun x t =>
    respond .silent (writeTile x (fold off (cellsOf (t.cfg.layer x))) data mask t)) s

/-- TILE.RD (R151). -/
def execTileRd (l off : Nat) (s : State) : Host.Outcome State Fault Refusal :=
  transact (withLayerWindow 0x1 l fun x t => returnData (tileAt (t.layer x) (fold off (cellsOf (t.cfg.layer x)))) t) s

/-- RSCR.WR (R152). -/
def execRscrWr (l off : Nat) (data mask : Word) (s : State) : Host.Outcome State Fault Refusal :=
  transact (withLayerWindow 0x2 l fun x t => respond .silent (writeRowtab x (fold off t.cfg.rowTabN) data mask t)) s

/-- RSCR.RD (R153). -/
def execRscrRd (l off : Nat) (s : State) : Host.Outcome State Fault Refusal :=
  transact (withLayerWindow 0x2 l fun x t => returnData (rowtabAt (t.layer x) (fold off t.cfg.rowTabN)) t) s

/-- CSCR.WR (R154). -/
def execCscrWr (l off : Nat) (data mask : Word) (s : State) : Host.Outcome State Fault Refusal :=
  transact (withLayerWindow 0x3 l fun x t => respond .silent (writeColtab x (fold off t.cfg.colTabN) data mask t)) s

/-- CSCR.RD (R155). -/
def execCscrRd (l off : Nat) (s : State) : Host.Outcome State Fault Refusal :=
  transact (withLayerWindow 0x3 l fun x t => returnData (coltabAt (t.layer x) (fold off t.cfg.colTabN)) t) s

/-- CTRL.WR (R156). -/
def execCtrlWr (b off : Nat) (data mask : Word) (s : State) : Host.Outcome State Fault Refusal :=
  transact (withBlockWindow 0x4 b fun t => respond .silent (writeCr b (fold off t.cfg.cbWords) data mask t)) s

/-- CTRL.RD: open bus (R157, R440). -/
def execCtrlRd (b : Nat) (s : State) : Host.Outcome State Fault Refusal :=
  transact (withBlockWindow 0x4 b returnDraw) s

/-- PAL.WR bank 0 (R158). -/
def execPalWr0 (off : Nat) (data mask : Word) (s : State) : Host.Outcome State Fault Refusal :=
  transact (fun t => respond .silent (writePal0 (fold off t.cfg.palN) data mask t)) s

/-- PAL.RD bank 0 (R159). -/
def execPalRd0 (off : Nat) (s : State) : Host.Outcome State Fault Refusal :=
  transact (fun t => returnData (pal0At t (fold off t.cfg.palN)) t) s

/-- PAL.WR bank 1 (R160). -/
def execPalWr1 (off : Nat) (data mask : Word) (s : State) : Host.Outcome State Fault Refusal :=
  transact (withBank1 fun t => respond .silent (writePal1 (fold off t.cfg.palN) data mask t)) s

/-- PAL.RD bank 1 (R161). -/
def execPalRd1 (off : Nat) (s : State) : Host.Outcome State Fault Refusal :=
  transact (withBank1 fun t => returnData (pal1At t (fold off t.cfg.palN)) t) s

/-- SPR.WR (R162). -/
def execSprWr (off : Nat) (data mask : Word) (s : State) : Host.Outcome State Fault Refusal :=
  transact (fun t => respond .silent (writeSprram (fold off t.cfg.sprRamWords) data mask t)) s

/-- SPR.RD (R163). -/
def execSprRd (off : Nat) (s : State) : Host.Outcome State Fault Refusal :=
  transact (fun t => returnData (sprramAt t (fold off t.cfg.sprRamWords)) t) s

/-- DMA.WR (R164). -/
def execDmaWr (s : State) : Host.Outcome State Fault Refusal :=
  transact (fun t => respond .silent (copySnapshot t)) s

/-- DMA.RD: open bus, no copy (R165, R440). -/
def execDmaRd (s : State) : Host.Outcome State Fault Refusal :=
  transact returnDraw s

end Sys2Proof.Machine
end

