-- ==== Sys2Proof/Machine/Tilemap.lean ====
section
/-!
DEFINITION. The tilemap renderer (41_tilemap_renderer.md): scan functions, attribute decode, the layer pixel,
scroll and flip mapping, and the micro-operations UPDATE, RENDER, DRAW, MARK_ALL_DIRTY and SETFLIP.
-/

namespace Sys2Proof.Machine

/-! ## Scan functions -/

/-- FOUR_PAGE: {row[5], col[5], row[4:0], col[4:0]} (R203). -/
def scanFourPage (col row : Nat) : Nat :=
  (2 * (row / 32 % 2) + col / 32 % 2) * 1024 + row % 32 * 32 + col % 32

/-- scan_L(col, row) (R200-R203). -/
def scan (c : LayerCfg) (col row : Nat) : Nat :=
  match c.scan with
  | .rowMajor => row * c.cols + col
  | .colMajor => col * c.rows + row
  | .fourPage => scanFourPage col row

/-- cellOf_L(o) = (col, row), the inverse of the scan function (R204). -/
def cellOf (c : LayerCfg) (o : Nat) : Nat × Nat :=
  match c.scan with
  | .rowMajor => (o % c.cols, o / c.cols)
  | .colMajor => (o / c.rows, o % c.rows)
  | .fourPage => (o / 1024 % 2 * 32 + o % 32, o / 2048 * 32 + o / 32 % 32)

/-! ## Attribute decode -/

/-- The SIMPLE decoder (R207). -/
def decodeSimple (w : Word) : TileInfo :=
  { tileIndex := w.extractLsb' 0 12, colorGroup := w.extractLsb' 12 4, flipX := false, flipY := false
    priorityBit := false }

/-- The BANKED decoder (R208). -/
def decodeBanked (w : Word) : TileInfo :=
  { tileIndex := (w.extractLsb' 14 2 ++ w.extractLsb' 0 8).setWidth 12
    colorGroup := (w.extractLsb' 8 3).setWidth 4
    flipX := w.getLsbD 12, flipY := w.getLsbD 13, priorityBit := w.getLsbD 11 }

/-- DEC_L (R205). -/
def decodeInfo (d : DecKind) (w : Word) : TileInfo :=
  match d with
  | .simple => decodeSimple w
  | .banked => decodeBanked w

/-! ## Pixels of a layer -/

/-- In-cell flip of one coordinate of a cell of side `side` (R210, R312). -/
def flipIn (flip : Bool) (side p : Nat) : Nat := if flip = true then side - 1 - p else p

/-- Palette index of a layer pixel (R212). -/
def layerIndex (c : Cfg) (lc : LayerCfg) (group : BitVec 4) (pen : Nat) : Nat :=
  (lc.palBase + 16 * group.toNat + pen) % c.palN

/-- The split class (R213). -/
def splitClass (lc : LayerCfg) (priorityBit : Bool) (pen : Pen) : PixClass :=
  if lc.split = true ∧ priorityBit = true ∧ lc.splitPen.toNat ≤ pen.toNat then .front else .back

/-- LPIXinfo(L, info, px, py) (R214). -/
def lpixInfo (c : Cfg) (lc : LayerCfg) (i : TileInfo) (px py : Nat) : Pixel :=
  let pen := tileGfx c lc.gfxBank i.tileIndex.toNat (flipIn i.flipX lc.cw px) (flipIn i.flipY lc.ch py)
  { pen := pen, cls := splitClass lc i.priorityBit pen, idx := layerIndex c lc i.colorGroup pen.toNat }

/-- The storage offset of the cell that holds layer position (lx, ly) (R214, R227). -/
def cellAt (lc : LayerCfg) (lx ly : Nat) : Nat := scan lc (lx / lc.cw) (ly / lc.ch)

/-- LPIX(L, lx, ly) over the tile words of layer state `x` (R214). -/
def lpix (c : Cfg) (lc : LayerCfg) (x : LayerState) (lx ly : Nat) : Pixel :=
  lpixInfo c lc (decodeInfo lc.dec (tileAt x (cellAt lc lx ly))) (lx % lc.cw) (ly % lc.ch)

/-! ## Scroll and flip mapping -/

/-- The words of a slot's scroll x, scroll y and mode registers (R43, R44, R215). -/
def slotWords (sl : Slot) : Nat × Nat × Nat :=
  match sl with
  | .a => (1, 2, 5)
  | .b => (3, 4, 6)

/-- The mode of a MODE field; code 3 is read as RESERVED_MODE (R44, R215). -/
def modeOf (c : Cfg) (m : Nat) : ScrollMode :=
  match m with
  | 0 => .whole
  | 1 => .row
  | 2 => .col
  | _ => c.reservedMode

/-- resolveScroll(L) (R215, R219). -/
def resolveScroll (l : LayerId) (s : State) : Scroll :=
  let lc := s.cfg.layer l
  let words := slotWords lc.slot
  let m := crAt s lc.cb words.2.2
  { mode := modeOf s.cfg (field m 0 2), sx := crAt s lc.cb words.1, sy := crAt s lc.cb words.2.1
    gran := 2 ^ (field m 2 3 + s.cfg.granBase) }

/-- The base a table value is added to: the global scroll under ADD, 0 under REPLACE (R217, R218). -/
def scrollBase (c : Cfg) (v : Word) : Nat :=
  match c.scrollCombine with
  | .add => v.toNat
  | .replace => 0

/-- The layer position that an unflipped screen position shows under a scroll state (R216-R218). -/
def scrollWith (c : Cfg) (lc : LayerCfg) (x : LayerState) (sc : Scroll) (ux uy : Nat) : Nat × Nat :=
  match sc.mode with
  | .whole => ((ux + sc.sx.toNat) % widthOf lc, (uy + sc.sy.toNat) % heightOf lc)
  | .row =>
    let ly := (uy + sc.sy.toNat) % heightOf lc
    let e := ly / sc.gran % c.rowTabN
    ((ux + scrollBase c sc.sx + (rowtabAt x e).toNat) % widthOf lc, ly)
  | .col =>
    let lx := (ux + sc.sx.toNat) % widthOf lc
    let e := lx / sc.gran % c.colTabN
    (lx, (uy + scrollBase c sc.sy + (coltabAt x e).toNat) % heightOf lc)

/-- scrollMap(L, ux, uy) by SCR[L] (R222). -/
def scrollMap (s : State) (l : LayerId) (ux uy : Nat) : Nat × Nat :=
  scrollWith s.cfg (s.cfg.layer l) (s.layer l) (s.layer l).scr ux uy

/-- The unflipped screen position of screen position (x, y) (R222). -/
def flipMap (c : Cfg) (flip : Bool) (x y : Nat) : Nat × Nat :=
  if flip = true then (c.screenW - 1 - x, c.screenH - 1 - y) else (x, y)

/-- Whether a pass writes a pixel of the layer (R224, R225). -/
def passDraws (lc : LayerCfg) (pass : LayerPass) (p : Pixel) : Bool :=
  match pass with
  | .back => lc.isOpaque || decide (p.pen ≠ lc.transPen)
  | .front => decide (p.cls = .front) && decide (p.pen ≠ lc.transPen)

/-- The cached pixel that layer `l` shows at screen position (x, y) (R223). -/
def shownPixel (s : State) (l : LayerId) (x y : Nat) : Pixel :=
  let u := flipMap s.cfg (s.layer l).flip x y
  let p := scrollMap s l u.1 u.2
  pcacheAt (s.cfg.layer l) (s.layer l) p.1 p.2

/-- VIS(L): the cells of layer `l` a frame samples, each once (R227). -/
def visibleCells (s : State) (l : LayerId) : List Nat :=
  ((List.range (screenPixels s.cfg)).map fun k =>
    let p := scrollMap s l (k % s.cfg.screenW) (k / s.cfg.screenW)
    cellAt (s.cfg.layer l) p.1 p.2).dedup

/-! ## Micro-operations -/

/-- UPDATE(L): decode every dirty cell (R228). -/
def updateLayer (l : LayerId) (s : State) : State :=
  let lc := s.cfg.layer l
  let x := s.layer l
  s.setLayer l { x with
    info := Store.tabulate unlistedInfo (cellsOf lc) fun o =>
      if dirtyAt x o = true then decodeInfo lc.dec (tileAt x o) else infoAt x o
    stale := Store.tabulate unlistedMark (cellsOf lc) fun o => dirtyAt x o || staleAt x o
    dirty := noneMarked (cellsOf lc) }

/-- The pixel cache entry at layer position (lx, ly) after RENDER: LPIXinfo of its cell if that cell is stale, else
as before (R229). -/
def renderedPixel (c : Cfg) (lc : LayerCfg) (x : LayerState) (lx ly : Nat) : Pixel :=
  if staleAt x (cellAt lc lx ly) = true then lpixInfo c lc (infoAt x (cellAt lc lx ly)) (lx % lc.cw) (ly % lc.ch)
  else pcacheAt lc x lx ly

/-- RENDER(L): materialise stale pixels (R229; pixel by pixel instead of cell by cell, log 16). -/
def renderLayer (l : LayerId) (s : State) : State :=
  let lc := s.cfg.layer l
  let x := s.layer l
  s.setLayer l { x with
    pcache := Store.tabulate unlistedPixel (widthOf lc * heightOf lc) fun k =>
      renderedPixel s.cfg lc x (k % widthOf lc) (k / widthOf lc)
    stale := noneMarked (cellsOf lc) }

/-- DRAW(L, pass): blit the pixel cache of layer L to COMP (R223). -/
def drawLayer (l : LayerId) (pass : LayerPass) (s : State) : State :=
  { s with
    comp := Store.tabulate unlistedIndex (screenPixels s.cfg) fun k =>
      let x := k % s.cfg.screenW
      let y := k / s.cfg.screenW
      if passDraws (s.cfg.layer l) pass (shownPixel s l x y) = true then (shownPixel s l x y).idx else compAt s x y }

/-- MARK_ALL_DIRTY(L) (R230). -/
def markAllDirty (l : LayerId) (s : State) : State :=
  s.setLayer l { s.layer l with dirty := allMarked (cellsOf (s.cfg.layer l)) }

/-- SETFLIP(L, f) (R231). -/
def setFlip (l : LayerId) (f : Bool) (s : State) : State :=
  markAllDirty l (s.setLayer l { s.layer l with flip := f })

/-- SCR[L] <- resolveScroll(L) (R215, R382, R395). -/
def latchScroll (l : LayerId) (s : State) : State :=
  s.setLayer l { s.layer l with scr := resolveScroll l s }

/-- H.UPDATE (R228). -/
def execHUpdate (l : Nat) (s : State) : Host.Outcome State Fault Refusal :=
  transact (withLayerArg .hUpdate l fun x t => respond .silent (updateLayer x t)) s

/-- H.RENDER (R229). -/
def execHRender (l : Nat) (s : State) : Host.Outcome State Fault Refusal :=
  transact (withLayerArg .hRender l fun x t => respond .silent (renderLayer x t)) s

/-- H.DRAW (R223). -/
def execHDraw (l : Nat) (pass : LayerPass) (s : State) : Host.Outcome State Fault Refusal :=
  transact (withLayerArg .hDraw l fun x t => respond .silent (drawLayer x pass t)) s

/-- H.SETFLIP (R231). -/
def execHSetflip (l : Nat) (f : Bool) (s : State) : Host.Outcome State Fault Refusal :=
  transact (withLayerArg .hSetflip l fun x t => respond .silent (setFlip x f t)) s

/-- H.MARKALLDIRTY (R230). -/
def execHMarkalldirty (l : Nat) (s : State) : Host.Outcome State Fault Refusal :=
  transact (withLayerArg .hMarkalldirty l fun x t => respond .silent (markAllDirty x t)) s

end Sys2Proof.Machine
end

