-- ==== Sys2Proof/Machine/Sprite.lean ====
section
/-!
DEFINITION. The sprite compositor (43_sprite_compositor.md): entry decode, the walk, cells, and SPRDRAW as the list
of its pixel writes in painter's order.
-/

namespace Sys2Proof.Machine

/-! ## Entries -/

/-- Word `k` of entry `e`: SNAP[SPR_ENTRY_WORDS * e + k] (R300). -/
def entryWord (s : State) (e k : Nat) : Word := snapAt s (s.cfg.sprEntryWords * e + k)

/-- TILE, W1[11:0] (R302). -/
def entryTile (s : State) (e : Nat) : BitVec 12 := (entryWord s e 1).extractLsb' 0 12

/-- COLOR, W2[15:12] (R303). -/
def entryColor (s : State) (e : Nat) : BitVec 4 := (entryWord s e 2).extractLsb' 12 4

/-- PRIO, W2[11]: 0 LOW, 1 HIGH (R303, R313). -/
def entryPrio (s : State) (e : Nat) : Bool := (entryWord s e 2).getLsbD 11

/-- FLASH, W0[12] (R301, R314). -/
def entryFlash (s : State) (e : Nat) : Bool := (entryWord s e 0).getLsbD 12

/-- FLIPX, W0[13] (R301). -/
def entryFlipX (s : State) (e : Nat) : Bool := (entryWord s e 0).getLsbD 13

/-- FLIPY, W0[14] (R301). -/
def entryFlipY (s : State) (e : Nat) : Bool := (entryWord s e 0).getLsbD 14

/-- CLIP, W2[10]: decoded; SPR_CLIP_MODE = IGNORE gives it no effect (R303, R315). -/
def entryClip (s : State) (e : Nat) : Bool := (entryWord s e 2).getLsbD 10

/-- The position x: sext of the X field (R303, R306). -/
def entryX (s : State) (e : Nat) : Int := sext s.cfg.sprPosBits (entryWord s e 2)

/-- The position y: sext of the Y field (R301, R306). -/
def entryY (s : State) (e : Nat) : Int := sext s.cfg.sprPosBits (entryWord s e 0)

/-- n = 1 << H, the number of cells (R302, R307). -/
def entryCells (s : State) (e : Nat) : Nat := 2 ^ field (entryWord s e 1) 12 2

/-- An unused entry: its TILE equals SPR_UNUSED_TILE (R305). -/
def entryUnused (s : State) (e : Nat) : Bool := decide (entryTile s e = s.cfg.sprUnusedTile)

/-! ## The walk -/

/-- The walk order (R316). -/
def walkOrder (c : Cfg) : List Nat :=
  match c.sprOrder with
  | .asc => List.range c.sprN
  | .desc => (List.range c.sprN).reverse

/-- LIVE(): the entries the walk reaches and that are not unused, in walk order (R305, R316, R321). -/
def liveEntries (s : State) : List Nat :=
  match s.cfg.sprUnusedAction with
  | .skip => (walkOrder s.cfg).filter fun e => !entryUnused s e
  | .stop => (walkOrder s.cfg).takeWhile fun e => !entryUnused s e

/-- The PRIO value a pass draws (R313). -/
def passPrio (pass : SprPass) : Bool := pass == .high

/-- The entries a pass draws: PRIO of the pass, and not skipped for flashing (R313, R314). -/
def drawnEntries (s : State) (pass : SprPass) : List Nat :=
  (liveEntries s).filter fun e =>
    entryPrio s e == passPrio pass && !(entryFlash s e && frameParity s == s.cfg.sprFlashSkipParity)

/-! ## Cells -/

/-- One cell of a sprite, ready to be drawn: its code, the screen position of its top-left pixel, its flips and its
colour group. -/
structure SprCell where
  code : Nat
  cx : Int
  cy : Int
  fx : Bool
  fy : Bool
  color : BitVec 4
  deriving DecidableEq, Repr

/-- y_k before the reflection: the chain of cells of side `side` goes up, or down under FLIPY (R307). -/
def chainY (side : Nat) (flipY : Bool) (y : Int) (k : Nat) : Int :=
  if flipY = true then y + (side : Int) * (k : Int) else y - (side : Int) * (k : Int)

/-- The Y reflection (R310). -/
def reflectY (m : YReflect) (y : Int) : Int :=
  match m with
  | .none => y
  | .reflect240 => 240 - y

/-- The screen flip of a cell: a rotation by 180 degrees (R311, with SPR_CELL for its 16). -/
def flipCell (c : Cfg) (flip : Bool) (q : SprCell) : SprCell :=
  if flip = true then
    { q with cx := (c.screenW : Int) - (c.sprCell : Int) - q.cx, cy := (c.screenH : Int) - (c.sprCell : Int) - q.cy
             fx := !q.fx, fy := !q.fy }
  else q

/-- Cell k of entry e under screen flip `flip` (R307, R310, R311). -/
def spriteCell (s : State) (flip : Bool) (e k : Nat) : SprCell :=
  flipCell s.cfg flip
    { code := ((entryTile s e).toNat + k) % 4096, cx := entryX s e
      cy := reflectY s.cfg.sprYReflect (chainY s.cfg.sprCell (entryFlipY s e) (entryY s e) k)
      fx := entryFlipX s e, fy := entryFlipY s e, color := entryColor s e }

/-- The cells of entry e, in chain order. -/
def spriteCells (s : State) (flip : Bool) (e : Nat) : List SprCell :=
  (List.range (entryCells s e)).map fun k => spriteCell s flip e k

/-- Palette index of a sprite pixel (R308). -/
def spriteIndex (c : Cfg) (color : BitVec 4) (pen : Nat) : Nat := (c.sprPalBase + 16 * color.toNat + pen) % c.palN

/-- The pen of pixel (px, py) of a cell (R312). -/
def cellPen (c : Cfg) (q : SprCell) (px py : Nat) : Pen :=
  sprGfx c q.code (flipIn q.fx c.sprCell px) (flipIn q.fy c.sprCell py)

/-- The screen position (X, Y) lies on the screen (R318). -/
def onScreen (c : Cfg) (x y : Int) : Bool :=
  decide (0 ≤ x) && decide (x < (c.screenW : Int)) && decide (0 ≤ y) && decide (y < (c.screenH : Int))

/-- The write of pixel (px, py) of a cell, if any: its screen index and palette index (R317, R318, R319). -/
def pixelWrite (c : Cfg) (q : SprCell) (px py : Nat) : Option (Nat × Nat) :=
  let x := q.cx + (px : Int)
  let y := q.cy + (py : Int)
  if cellPen c q px py ≠ c.sprTransPen ∧ onScreen c x y = true then
    some (screenKey c x.toNat y.toNat, spriteIndex c q.color (cellPen c q px py).toNat)
  else none

/-- The pixels of a cell, row by row. -/
def cellPixels (c : Cfg) : List (Nat × Nat) :=
  (List.range c.sprCell).flatMap fun py => (List.range c.sprCell).map fun px => (px, py)

/-- The writes of one cell, in order. -/
def cellWrites (c : Cfg) (q : SprCell) : List (Nat × Nat) := (cellPixels c).filterMap fun p => pixelWrite c q p.1 p.2

/-- The writes of SPRDRAW(pass) under screen flip `flip`, in painter's order: entry by entry in walk order, cell by
cell, pixel by pixel (R317, R319). -/
def spriteWrites (s : State) (flip : Bool) (pass : SprPass) : List (Nat × Nat) :=
  (drawnEntries s pass).flatMap fun e => (spriteCells s flip e).flatMap fun q => cellWrites s.cfg q

/-- SPRDRAW(pass) (R319); the screen flip is FLIP_PREV (R311). -/
def drawSprites (pass : SprPass) (s : State) : State :=
  { s with comp := Store.writeAll unlistedIndex s.comp (spriteWrites s s.flipPrev pass) }

/-- H.SPRDRAW (R319). -/
def execHSprdraw (pass : SprPass) (s : State) : Host.Outcome State Fault Refusal :=
  transact (fun t => respond .silent (drawSprites pass t)) s

end Sys2Proof.Machine
end

