-- ==== Sys2Proof/Machine/Palette.lean ====
section
/-!
DEFINITION. The palette cache controller (42_palette_cache.md): colour conversion, used-colour accumulation,
RECOMPUTE and INVALIDATE.
-/

namespace Sys2Proof.Machine

/-! ## Colours -/

/-- rgbOf in SPLIT_RG_B: R = RG[7:0], G = RG[15:8], B = B[7:0] (R261). -/
def rgbSplit (rg b : Word) : Rgb := { r := rg.extractLsb' 0 8, g := rg.extractLsb' 8 8, b := b.extractLsb' 0 8 }

/-- A 4-bit channel scaled to 8 bits: (c4 << 4) | c4 (R262). -/
def scale4 (c : BitVec 4) : BitVec 8 := c ++ c

/-- rgbOf in PACKED_RGBX: RRRRGGGGBBBBxxxx (R262). -/
def rgbPacked (w : Word) : Rgb :=
  { r := scale4 (w.extractLsb' 12 4), g := scale4 (w.extractLsb' 8 4), b := scale4 (w.extractLsb' 4 4) }

/-- rgbOf(i) (R261, R262, R263). -/
def rgbOf (s : State) (i : Nat) : Rgb :=
  match s.cfg.palFmt with
  | .splitRgB => rgbSplit (pal0At s i) (pal1At s i)
  | .packedRgbx => rgbPacked (pal0At s i)

/-! ## Used colours -/

/-- MARK_USED(i) (R270). -/
def markUsed (i : Nat) (s : State) : State := { s with used := Store.write unlistedUse s.used i true }

/-- The 16 indices of the colour group of a cell of a layer (R271). -/
def layerGroup (c : Cfg) (lc : LayerCfg) (group : BitVec 4) : List Nat :=
  (List.range 16).map fun p => layerIndex c lc group p

/-- The 16 indices of a sprite's colour group (R271, R321). -/
def spriteGroup (c : Cfg) (color : BitVec 4) : List Nat := (List.range 16).map fun p => spriteIndex c color p

/-- The indices ACCUMULATE marks: the groups of every visible cell of every layer, of every live sprite, and the
backdrop (R271). -/
def accumulated (s : State) : List Nat :=
  ((layersOf s.cfg).flatMap fun l =>
      (visibleCells s l).flatMap fun o => layerGroup s.cfg (s.cfg.layer l) (infoAt (s.layer l) o).colorGroup)
    ++ ((liveEntries s).flatMap fun e => spriteGroup s.cfg (entryColor s e))
    ++ [s.cfg.backdrop]

/-- Clear every used flag (R384, R396). -/
def clearUsed (s : State) : State := { s with used := noneUsed s.cfg.palN }

/-- ACCUMULATE() (R271). -/
def accumulate (s : State) : State := { s with used := markAllUsed s.used (accumulated s) }

/-! ## RECOMPUTE -/

/-- The condition under which RECOMPUTE runs (R273). -/
def recomputeRuns (s : State) : Bool := s.palDirty || usedDiffers s

/-- Some used entry's published colour differs from its colour (R272, R274). -/
def somePubDiffers (s : State) : Bool :=
  (List.range s.cfg.palN).any fun i => usedAt s i && decide (pubAt s i ≠ rgbOf s i)

/-- What RECOMPUTE returns: it ran and wrote a value that differed (R274). -/
def recomputeReports (s : State) : Bool := recomputeRuns s && somePubDiffers s

/-- RECOMPUTE() (R272): if it runs, every used entry is published, USED_PREV <- USED, PAL_DIRTY <- 0. -/
def recompute (s : State) : State :=
  if recomputeRuns s = true then
    { s with
      pub := Store.tabulate unlistedRgb s.cfg.palN fun i => if usedAt s i = true then rgbOf s i else pubAt s i
      usedPrev := s.used
      palDirty := false }
  else s

/-- INVALIDATE(L) (R275). -/
def invalidate (l : LayerId) (s : State) : State :=
  s.setLayer l { s.layer l with stale := allMarked (cellsOf (s.cfg.layer l)) }

/-- The word H.RECOMPUTE puts on the read-data bus: 1 for true, 0 for false (R126, R274). -/
def reportWord (b : Bool) : Word := if b = true then 1 else 0

/-- H.MARKUSED (R270). -/
def execHMarkused (i : Nat) (s : State) : Host.Outcome State Fault Refusal :=
  transact (withPaletteArg .hMarkused i fun t => respond .silent (markUsed i t)) s

/-- H.RECOMPUTE (R272, R274). -/
def execHRecompute (s : State) : Host.Outcome State Fault Refusal :=
  transact (fun t => returnData (reportWord (recomputeReports t)) (recompute t)) s

/-- H.INVALIDATE (R275). -/
def execHInvalidate (l : Nat) (s : State) : Host.Outcome State Fault Refusal :=
  transact (withLayerArg .hInvalidate l fun x t => respond .silent (invalidate x t)) s

end Sys2Proof.Machine
end

