-- ==== Sys2Proof/Machine/Sequencer.lean ====
section
/-!
DEFINITION. The frame sequencer (45_frame_sequencer.md): the steps of FRAME.RENDER, the micro-operations it owns,
and FRAMEFN, the frame as a pure function of the architectural storage (R390).
-/

namespace Sys2Proof.Machine

/-! ## The steps of a frame -/

/-- Step 1, flip poll (R381). -/
def stepFlip (s : State) : State :=
  if flipBit s = s.flipPrev then s
  else { forLayers (fun l t => setFlip l (flipBit s) t) s with flipPrev := flipBit s }

/-- Step 2, scroll latch (R382). -/
def stepScroll (s : State) : State := forLayers latchScroll s

/-- Step 3, update and render (R383). -/
def stepUpdate (s : State) : State := forLayers (fun l t => renderLayer l (updateLayer l t)) s

/-- Used-colour accumulation on cleared flags (R384). -/
def stepAccumulate (s : State) : State := accumulate (clearUsed s)

/-- Step 4, palette: a reported change invalidates and re-renders every layer (R385). -/
def stepPalette (s : State) : State :=
  if recomputeReports s = true then forLayers renderLayer (forLayers invalidate (recompute s)) else recompute s

/-- FILL(): COMP <- BACKDROP everywhere (R397). -/
def fillBackdrop (s : State) : State :=
  { s with comp := Store.tabulate unlistedIndex (screenPixels s.cfg) fun _ => s.cfg.backdrop }

/-- (m1, m2): the mid layers in the order PRIO_ORDER(PSTATE) gives (R386, R387). -/
def midLayers (s : State) : LayerId × LayerId :=
  match prioOrderAt s.cfg.prioOrder s.pstate with
  | .ab => (.mida, .midb)
  | .ba => (.midb, .mida)

/-- One of the draws of a frame. -/
inductive FramePass where
  | layer (l : LayerId) (pass : LayerPass)
  | sprites (pass : SprPass)
  deriving DecidableEq, Repr

/-- The draws of a frame in their fixed order (R386, R393). -/
def framePasses (m1 m2 : LayerId) : List FramePass :=
  [.layer .bg .back, .sprites .low, .layer m1 .back, .layer m2 .back, .sprites .high,
   .layer .bg .front, .layer m1 .front, .layer m2 .front, .layer .fg .back]

/-- One draw. -/
def runPass (p : FramePass) (s : State) : State :=
  match p with
  | .layer l pass => drawLayer l pass s
  | .sprites pass => drawSprites pass s

/-- Step 5, composite (R386). -/
def stepComposite (s : State) : State :=
  (framePasses (midLayers s).1 (midLayers s).2).foldl (fun acc p => runPass p acc) (fillBackdrop s)

/-- Step 6, output: OUT[x][y] <- PUB[COMP[x][y]] (R388). -/
def stepOutput (s : State) : State :=
  { s with
    out := Store.tabulate unlistedRgb (screenPixels s.cfg) fun k =>
      pubAt s (compAt s (k % s.cfg.screenW) (k / s.cfg.screenW)) }

/-- The frame counter's increment, modulo 2^32 (R389). -/
def countFrame (s : State) : State := { s with frameCnt := s.frameCnt + 1 }

/-- FRAME.RENDER() (R380). -/
def renderFrame (s : State) : State :=
  countFrame (stepOutput (stepComposite (stepPalette (stepAccumulate (stepUpdate (stepScroll (stepFlip s)))))))

/-- FRAME.RENDER: the frame, returned to the scheduler (R380, R391). -/
def execFrameRender (s : State) : Host.Outcome State Fault Refusal :=
  transact (fun t => respond .frame (renderFrame t)) s

/-- H.LATCHSCROLL (R395). -/
def execHLatchscroll (l : Nat) (s : State) : Host.Outcome State Fault Refusal :=
  transact (withLayerArg .hLatchscroll l fun x t => respond .silent (latchScroll x t)) s

/-- H.CLEARUSED (R396). -/
def execHClearused (s : State) : Host.Outcome State Fault Refusal :=
  transact (fun t => respond .silent (clearUsed t)) s

/-- H.FILL (R397). -/
def execHFill (s : State) : Host.Outcome State Fault Refusal :=
  transact (fun t => respond .silent (fillBackdrop t)) s

/-- H.OUTPUT: FRAME_CNT is not incremented and nothing is returned (R398). -/
def execHOutput (s : State) : Host.Outcome State Fault Refusal :=
  transact (fun t => respond .silent (stepOutput t)) s

/-! ## FRAMEFN: the frame as a function of the architectural storage (R390) -/

/-- The last value a list of writes gives to index `k`, else `c`. -/
def lastWrite (ws : List (Nat × Nat)) (k c : Nat) : Nat := ws.foldl (fun acc w => if w.1 = k then w.2 else acc) c

/-- What one pass makes of the colour index `c` of pixel (x, y), from the storage alone (R390). -/
def passIndex (s : State) (x y : Nat) (p : FramePass) (c : Nat) : Nat :=
  match p with
  | .layer l pass =>
    let lc := s.cfg.layer l
    let u := flipMap s.cfg (flipBit s) x y
    let q := scrollWith s.cfg lc (s.layer l) (resolveScroll l s) u.1 u.2
    let px := lpix s.cfg lc (s.layer l) q.1 q.2
    if passDraws lc pass px = true then px.idx else c
  | .sprites pass => lastWrite (spriteWrites s (flipBit s) pass) (screenKey s.cfg x y) c

/-- The palette index FRAMEFN gives pixel (x, y). -/
def frameIndex (s : State) (x y : Nat) : Nat :=
  (framePasses (midLayers s).1 (midLayers s).2).foldl (fun c p => passIndex s x y p c) s.cfg.backdrop

/-- FRAMEFN(s) at pixel (x, y) (R390). -/
def frameFn (s : State) (x y : Nat) : Rgb := rgbOf s (frameIndex s x y)

end Sys2Proof.Machine
end

