-- ==== Sys2Proof/Machine/Dispatch.lean ====
section
/-!
DEFINITION. One arm for each transaction.
-/

namespace Sys2Proof.Machine

def exec (i : Instr) (s : State) : Host.Outcome State Fault Refusal :=
  match i with
  | .tileWr l off data mask => Sys2Proof.Machine.execTileWr l off data mask s
  | .tileRd l off => Sys2Proof.Machine.execTileRd l off s
  | .rscrWr l off data mask => Sys2Proof.Machine.execRscrWr l off data mask s
  | .rscrRd l off => Sys2Proof.Machine.execRscrRd l off s
  | .cscrWr l off data mask => Sys2Proof.Machine.execCscrWr l off data mask s
  | .cscrRd l off => Sys2Proof.Machine.execCscrRd l off s
  | .ctrlWr b off data mask => Sys2Proof.Machine.execCtrlWr b off data mask s
  | .ctrlRd b _ => Sys2Proof.Machine.execCtrlRd b s
  | .palWr0 off data mask => Sys2Proof.Machine.execPalWr0 off data mask s
  | .palRd0 off => Sys2Proof.Machine.execPalRd0 off s
  | .palWr1 off data mask => Sys2Proof.Machine.execPalWr1 off data mask s
  | .palRd1 off => Sys2Proof.Machine.execPalRd1 off s
  | .sprWr off data mask => Sys2Proof.Machine.execSprWr off data mask s
  | .sprRd off => Sys2Proof.Machine.execSprRd off s
  | .dmaWr => Sys2Proof.Machine.execDmaWr s
  | .dmaRd => Sys2Proof.Machine.execDmaRd s
  | .protWr data mask => Sys2Proof.Machine.execProtWr data mask s
  | .protRd => Sys2Proof.Machine.execProtRd s
  | .frameRender => Sys2Proof.Machine.execFrameRender s
  | .hUpdate l => Sys2Proof.Machine.execHUpdate l s
  | .hRender l => Sys2Proof.Machine.execHRender l s
  | .hDraw l pass => Sys2Proof.Machine.execHDraw l pass s
  | .hSprdraw pass => Sys2Proof.Machine.execHSprdraw pass s
  | .hMarkused n => Sys2Proof.Machine.execHMarkused n s
  | .hRecompute => Sys2Proof.Machine.execHRecompute s
  | .hSetflip l f => Sys2Proof.Machine.execHSetflip l f s
  | .hMarkalldirty l => Sys2Proof.Machine.execHMarkalldirty l s
  | .hLatchscroll l => Sys2Proof.Machine.execHLatchscroll l s
  | .hClearused => Sys2Proof.Machine.execHClearused s
  | .hInvalidate l => Sys2Proof.Machine.execHInvalidate l s
  | .hFill => Sys2Proof.Machine.execHFill s
  | .hOutput => Sys2Proof.Machine.execHOutput s

end Sys2Proof.Machine
end

