-- ==== Sys2Proof/Machine/Port.lean ====
section
/-!
DEFINITION. Taking the next transaction word of the stream (R94, R95, R110) and performing it or refusing it (R434).
-/

namespace Sys2Proof.Machine

/-- Perform the transaction a word spells; a refused word sets REFUSED and does nothing else (R125, R131, R434). -/
def perform (w : Txn) (s : State) : Host.Outcome State Fault Refusal :=
  match decode w with
  | .ok i => exec i s
  | .error _ => .next (refuseWord s)

/-- Take the word `w`, the rest of the stream staying pending. An illegal configuration is refused (I30, log 4). A
halted block takes no word: the step is the identity (R431, log 3). -/
def takeWord (w : Txn) (rest : List Txn) (s : State) : Host.Outcome State Fault Refusal :=
  if boardLegal s.cfg = true then
    if halted s = true then .next s else perform w { s with port := rest }
  else .refused .illegalBoard

/-- One step: the next word of the stream is taken and performed whole (R5, R95); with none pending the block idles
and holds its state (R451, log 2). -/
def takeStep (s : State) : Host.Outcome State Fault Refusal :=
  match s.port with
  | [] => .next s
  | w :: rest => takeWord w rest s

/-- A word presented ahead of every word still pending. -/
def presentWord (w : Txn) (s : State) : State := { s with port := w :: s.port }

end Sys2Proof.Machine
end

