-- ==== Sys2Proof/Machine/Step.lean ====
section
/-!
DEFINITION. One step of the machine: one transaction (R5, R95). It only calls Machine/Port.lean.
-/

namespace Sys2Proof.Machine

/-- One step: the block takes the next transaction word and performs it whole. -/
def step (s : State) : Host.Outcome State Fault Refusal := takeStep s

/-- The state with a transaction word presented where `step` takes its next one: at the head of the stream. -/
def State.withFetchWord (s : State) (nbits w : Nat) : State := presentWord (BitVec.ofNat 64 (w % 2 ^ nbits)) s

end Sys2Proof.Machine
end

