-- ==== Sys2Proof/Machine/CpuDispatch.lean ====
section
/-!
DEFINITION. The CPU side of the bus port: how the CPU dispatch turns a CPU address into a transaction (R84, R85,
R91), the assembly syntax (R140, R141) and the pseudo-instructions (R142). The block itself reads none of this.
-/

namespace Sys2Proof.Machine

/-! ## CPU accesses (R84, R85, R91) -/

/-- The window instances a CPU address can name: (region, sub-target, word offset). -/
structure BusTarget where
  region : Nat
  sub : Nat
  off : Nat
  deriving DecidableEq, Repr

/-- The range of REGION_BASE that holds a CPU byte address (R91); the first listed one, if several do. -/
def rangeOf (ranges : List RegionRange) (addr : Nat) : Option RegionRange :=
  match ranges with
  | [] => none
  | r :: rest => if r.base ≤ addr ∧ addr < r.base + r.stride * r.words then some r else rangeOf rest addr

/-- The window instance and word offset that a CPU byte address inside a range names (R91). -/
def targetIn (r : RegionRange) (addr : Nat) : BusTarget :=
  { region := r.region, sub := r.sub, off := (addr - r.base) / r.stride }

/-- The window instance and word offset of a CPU byte address (R91). -/
def busTarget (ranges : List RegionRange) (addr : Nat) : Option BusTarget :=
  (rangeOf ranges addr).map fun r => targetIn r addr

/-- A transaction that exists at one sub-target only (R111, R118). -/
def onlyAt (sub want : Nat) (i : Instr) : Option Instr := if sub = want then some i else none

/-- The write transaction of a window (R118): none for a region that is no window. -/
def busWrite (t : BusTarget) (data mask : Word) : Option Instr :=
  match t.region with
  | 0x1 => some (.tileWr t.sub t.off data mask)
  | 0x2 => some (.rscrWr t.sub t.off data mask)
  | 0x3 => some (.cscrWr t.sub t.off data mask)
  | 0x4 => some (.ctrlWr t.sub t.off data mask)
  | 0x5 => if t.sub = 0 then some (.palWr0 t.off data mask) else onlyAt t.sub 1 (.palWr1 t.off data mask)
  | 0x6 => onlyAt t.sub 0 (.sprWr t.off data mask)
  | 0x7 => onlyAt t.sub 0 .dmaWr
  | 0x8 => onlyAt t.sub 0 (.protWr data mask)
  | _ => none

/-- The read transaction of a window (R118). -/
def busRead (t : BusTarget) : Option Instr :=
  match t.region with
  | 0x1 => some (.tileRd t.sub t.off)
  | 0x2 => some (.rscrRd t.sub t.off)
  | 0x3 => some (.cscrRd t.sub t.off)
  | 0x4 => some (.ctrlRd t.sub t.off)
  | 0x5 => if t.sub = 0 then some (.palRd0 t.off) else onlyAt t.sub 1 (.palRd1 t.off)
  | 0x6 => onlyAt t.sub 0 (.sprRd t.off)
  | 0x7 => onlyAt t.sub 0 .dmaRd
  | 0x8 => onlyAt t.sub 0 .protRd
  | _ => none

/-- A CPU byte write: a word write with one lane's mask (R84, R85). -/
def cpuWriteByte (c : Cfg) (addr : Nat) (v : BitVec 8) : Option Instr :=
  (busTarget c.regionBase addr).bind fun t => busWrite t (byteOnLanes v) (laneMask c.laneMap addr)

/-- A CPU byte address at which a range takes a whole word in one access: its words stand at two byte addresses each, from
an even base, and the address is even. -/
def wordAligned (r : RegionRange) (addr : Nat) : Bool := r.stride == 2 && r.base % 2 == 0 && addr % 2 == 0

/-- A CPU word write at an even byte address: one transaction with the full mask (R83). DESIGN CHOICE (log 24): R86 leaves
a word access at an odd byte address to the CPU dispatch, and no rule says what a word access to a range whose bytes
stand at separate addresses issues; both are left open here: `none`, no transaction is named. -/
def cpuWriteWord (c : Cfg) (addr : Nat) (v : Word) : Option Instr :=
  (rangeOf c.regionBase addr).bind fun r =>
    if wordAligned r addr = true then busWrite (targetIn r addr) v 0xFFFF else none

/-- A CPU read: one transaction that returns all 16 bits of the word at the address; the dispatch selects the lane it
wants (R85). What the dispatch makes of a word read at an odd byte address is left open, as in `cpuWriteWord` (R86,
log 24). -/
def cpuRead (c : Cfg) (addr : Nat) : Option Instr := (busTarget c.regionBase addr).bind busRead

/-! ## Assembly syntax (R140, R141) -/

/-- A mnemonic and its operands. -/
def asmLine (mnemonic : String) (operands : List Nat) : String :=
  match operands with
  | [] => mnemonic
  | a :: rest => rest.foldl (fun acc n => acc ++ ", " ++ toString n) (mnemonic ++ " " ++ toString a)

/-- The operands of a transaction in the order of R140, a mask written out. -/
def asmOperands (i : Instr) : List Nat :=
  match i with
  | .tileWr l off data mask => [l, off, data.toNat, mask.toNat]
  | .tileRd l off => [l, off]
  | .rscrWr l off data mask => [l, off, data.toNat, mask.toNat]
  | .rscrRd l off => [l, off]
  | .cscrWr l off data mask => [l, off, data.toNat, mask.toNat]
  | .cscrRd l off => [l, off]
  | .ctrlWr b off data mask => [b, off, data.toNat, mask.toNat]
  | .ctrlRd b off => [b, off]
  | .palWr0 off data mask => [0, off, data.toNat, mask.toNat]
  | .palRd0 off => [0, off]
  | .palWr1 off data mask => [1, off, data.toNat, mask.toNat]
  | .palRd1 off => [1, off]
  | .sprWr off data mask => [off, data.toNat, mask.toNat]
  | .sprRd off => [off]
  | .dmaWr => []
  | .dmaRd => []
  | .protWr data mask => [data.toNat, mask.toNat]
  | .protRd => []
  | .frameRender => []
  | .hUpdate l => [l]
  | .hRender l => [l]
  | .hDraw l pass => [l, if pass = .front then 1 else 0]
  | .hSprdraw pass => [if pass = .high then 1 else 0]
  | .hMarkused i => [i]
  | .hRecompute => []
  | .hSetflip l f => [l, f.toNat]
  | .hMarkalldirty l => [l]
  | .hLatchscroll l => [l]
  | .hClearused => []
  | .hInvalidate l => [l]
  | .hFill => []
  | .hOutput => []

/-- The assembly line of a transaction, numbers in decimal (R140, R141). -/
def assembly (i : Instr) : String := asmLine (mnemonicOf i) (asmOperands i)

/-! ## Pseudo-instructions (R142) -/

/-- The data of X.WRH: `byte << 8`. -/
def highByte (v : BitVec 8) : Word := v ++ (0 : BitVec 8)

/-- The data of X.WRL. -/
def lowByte (v : BitVec 8) : Word := (0 : BitVec 8) ++ v

/-- `X.WRH t, off, byte`. -/
def pseudoWrh (t : BusTarget) (v : BitVec 8) : Option Instr := busWrite t (highByte v) highLane

/-- `X.WRL t, off, byte`. -/
def pseudoWrl (t : BusTarget) (v : BitVec 8) : Option Instr := busWrite t (lowByte v) lowLane

/-- The number of a layer (R9). -/
def layerNumber (l : LayerId) : Nat :=
  match l with
  | .bg => 0
  | .mida => 1
  | .midb => 2
  | .fg => 3

/-- `CELL.WR L, col, row, data`. -/
def pseudoCellWr (c : Cfg) (l : LayerId) (col row : Nat) (data : Word) : List Instr :=
  [.tileWr (layerNumber l) (scan (c.layer l) col row) data 0xFFFF]

/-- `SCROLL L, x, y`. -/
def pseudoScroll (c : Cfg) (l : LayerId) (x y : Word) : List Instr :=
  [.ctrlWr (c.layer l).cb (slotWords (c.layer l).slot).1 x 0xFFFF,
   .ctrlWr (c.layer l).cb (slotWords (c.layer l).slot).2.1 y 0xFFFF]

/-- `SMODE L, mode, g`: the mode word `(g << 2) | mode`. -/
def pseudoSmode (c : Cfg) (l : LayerId) (mode g : Word) : List Instr :=
  [.ctrlWr (c.layer l).cb (slotWords (c.layer l).slot).2.2 (g <<< 2 ||| mode) 0xFFFF]

/-- `FLIPSCREEN f`. -/
def pseudoFlipscreen (c : Cfg) (f : Bool) : List Instr :=
  [.ctrlWr c.flipBlock 0 (if f = true then 0x0080 else 0x0000) 0x0080]

/-- `SPRITE e, w0, w1, w2, w3`. -/
def pseudoSprite (c : Cfg) (e : Nat) (w0 w1 w2 w3 : Word) : List Instr :=
  [.sprWr (c.sprEntryWords * e) w0 0xFFFF, .sprWr (c.sprEntryWords * e + 1) w1 0xFFFF,
   .sprWr (c.sprEntryWords * e + 2) w2 0xFFFF, .sprWr (c.sprEntryWords * e + 3) w3 0xFFFF]

/-- `PALRGB i, r, g, b`, for PAL_FMT = SPLIT_RG_B. -/
def pseudoPalrgb (i : Nat) (r g b : BitVec 8) : List Instr :=
  [.palWr0 i (g ++ r) 0xFFFF, .palWr1 i (lowByte b) 0xFFFF]

/-- `PALPK i, r4, g4, b4`, for PAL_FMT = PACKED_RGBX. -/
def pseudoPalpk (i : Nat) (r4 g4 b4 : BitVec 4) : List Instr := [.palWr0 i (r4 ++ g4 ++ b4 ++ (0 : BitVec 4)) 0xFFFF]

end Sys2Proof.Machine
end

