-- ==== Sys2Proof/Safety.lean ====
section
/-!
DEFINITION. What counts as a good state and a safe run: the canonical form of every array, the coherence of the
caches with the storage (R233, R276), the bounds of palette indices and granularities, and the states a reset may
leave (R470).
-/

namespace Sys2Proof.Machine

/-! ## Memory -/

/-- The arrays of a layer are in canonical form and hold no element outside their window. -/
def layerMemWf (c : Cfg) (lc : LayerCfg) (x : LayerState) : Bool :=
  Store.wf unlistedWord (cellsOf lc) x.tile && Store.wf unlistedMark (cellsOf lc) x.dirty
    && Store.wf unlistedInfo (cellsOf lc) x.info && Store.wf unlistedMark (cellsOf lc) x.stale
    && Store.wf unlistedPixel (widthOf lc * heightOf lc) x.pcache
    && Store.wf unlistedWord c.rowTabN x.rowtab && Store.wf unlistedWord c.colTabN x.coltab

/-- Every array of the state is in canonical form and holds no element outside its window. -/
def memWf (s : State) : Bool :=
  layerMemWf s.cfg s.cfg.bg s.bg && layerMemWf s.cfg s.cfg.mida s.mida && layerMemWf s.cfg s.cfg.midb s.midb
    && layerMemWf s.cfg s.cfg.fg s.fg
    && Store.wf unlistedWord (s.cfg.cbWords * s.cfg.ncb) s.cr
    && Store.wf unlistedWord s.cfg.palN s.pal0 && Store.wf unlistedWord s.cfg.palN s.pal1
    && Store.wf unlistedUse s.cfg.palN s.used && Store.wf unlistedUse s.cfg.palN s.usedPrev
    && Store.wf unlistedRgb s.cfg.palN s.pub
    && Store.wf unlistedWord s.cfg.sprRamWords s.sprram && Store.wf unlistedWord s.cfg.sprRamWords s.snap
    && Store.wf unlistedIndex (screenPixels s.cfg) s.comp && Store.wf unlistedRgb (screenPixels s.cfg) s.out

/-! ## Coherence of the caches -/

/-- A cell that is not dirty has its tile word's decoded info in INFO (R233, with R150 and R228). -/
def InfoCoherent (s : State) : Prop :=
  ∀ l o, o < cellsOf (s.cfg.layer l) → dirtyAt (s.layer l) o = false →
    infoAt (s.layer l) o = decodeInfo (s.cfg.layer l).dec (tileAt (s.layer l) o)

/-- A pixel of a cell that is not stale is LPIXinfo of the cell's INFO (R233, with R229). -/
def CacheCoherent (s : State) : Prop :=
  ∀ l lx ly, lx < widthOf (s.cfg.layer l) → ly < heightOf (s.cfg.layer l) →
    staleAt (s.layer l) (cellAt (s.cfg.layer l) lx ly) = false →
    pcacheAt (s.cfg.layer l) (s.layer l) lx ly
      = lpixInfo s.cfg (s.cfg.layer l) (infoAt (s.layer l) (cellAt (s.cfg.layer l) lx ly))
          (lx % (s.cfg.layer l).cw) (ly % (s.cfg.layer l).ch)

/-- With no palette write outstanding, every entry used at the last RECOMPUTE is published with its colour (R276). -/
def PubCoherent (s : State) : Prop :=
  s.palDirty = false → ∀ i, i < s.cfg.palN → usedPrevAt s i = true → pubAt s i = rgbOf s i

/-- The layers are flipped as the frame sequencer last polled (R381). -/
def FlipSync (s : State) : Prop := ∀ l, (s.layer l).flip = s.flipPrev

/-! ## Bounds -/

/-- COMP and PCACHE hold palette indices, 0..PAL_N-1 (R14). -/
def IndexBounded (s : State) : Prop :=
  (∀ k, Store.read unlistedIndex s.comp k < s.cfg.palN)
    ∧ ∀ l k, (Store.read unlistedPixel (s.layer l).pcache k).idx < s.cfg.palN

/-- The latched granularity lies in 1..2^9 (R40). -/
def GranBounded (s : State) : Prop := ∀ l, 0 < (s.layer l).scr.gran ∧ (s.layer l).scr.gran ≤ 2 ^ 9

/-- A halted block gives no response (R430, R431). -/
def HaltedSilent (s : State) : Prop := halted s = true → s.resp = .silent

/-! ## Good states, safe runs, launches -/

/-- The invariant of the block. -/
structure Good (s : State) : Prop where
  board : boardLegal s.cfg = true
  mem : memWf s = true
  info : InfoCoherent s
  cache : CacheCoherent s
  pub : PubCoherent s
  index : IndexBounded s
  gran : GranBounded s
  silent : HaltedSilent s

/-- A safe run has raised no fault and met no refused word (R431). -/
def Running (s : State) : Prop := halted s = false

/-- The transactions of a list, performed one after the other in one total order (R94, R95). -/
def execAll (is : List Instr) (s : State) : Host.Outcome State Fault Refusal :=
  match is with
  | [] => .next s
  | i :: rest =>
    match exec i s with
    | .next t => execAll rest t
    | .fault f => .fault f
    | .refused r => .refused r

/-- A layer state that a reset may leave: the marks 1 and FLIP 0; everything else unspecified (R470). -/
def LayerLaunch (x : LayerState) : Prop :=
  (∀ o, dirtyAt x o = true) ∧ (∀ o, staleAt x o = true) ∧ x.flip = false

/-- A state that a reset may leave: every value R470 gives, the rest unspecified. -/
def Launch (s : State) : Prop :=
  (∀ l, LayerLaunch (s.layer l)) ∧ s.palDirty = true ∧ (∀ i, usedAt s i = false) ∧ (∀ i, usedPrevAt s i = false)
    ∧ s.pstate = .level0 ∧ s.preadback = 0x0000 ∧ s.platch = 0x0000 ∧ s.flipPrev = false ∧ s.frameCnt = 0
    ∧ s.fault = none ∧ s.refused = false

/-- The storage that only the CPU bus and the arbiter write: TILE, ROWTAB, COLTAB, CR, PAL0, PAL1, SPRRAM, SNAP,
PSTATE, PREADBACK, PLATCH and the board are the same in both states. -/
def SameStorage (s t : State) : Prop :=
  t.cfg = s.cfg ∧ (∀ l, (t.layer l).tile = (s.layer l).tile ∧ (t.layer l).rowtab = (s.layer l).rowtab
      ∧ (t.layer l).coltab = (s.layer l).coltab)
    ∧ t.cr = s.cr ∧ t.pal0 = s.pal0 ∧ t.pal1 = s.pal1 ∧ t.sprram = s.sprram ∧ t.snap = s.snap
    ∧ t.pstate = s.pstate ∧ t.preadback = s.preadback ∧ t.platch = s.platch

end Sys2Proof.Machine
end

