-- ==== Sys2Proof/Certificates/Slice0/Obligations.lean ====
section
/-!
DEFINITION. The statements for the provers. Each docstring names the rule of spec/ it formalises; what OBLIGATIONS.json
calls derived rests on the rules it cites or is the model's own choice, and then the docstring names the log entry.
-/

open Sys2Proof Sys2Proof.Machine

/-! ## Encoding -/

/-- Decode and encode agree on every well-formed transaction (R110-R125; ignored fields are encoded 0, log 12). -/
def Obligations.DecodeOfEncodeIsTheTransaction : Prop :=
  ∀ i : Instr, i.wellFormed = true → decode (encode i) = .ok i

/-- What the decoder reads is well-formed, and it is the only word that spells it, but for the fields that DMA.* and
PROT.* ignore (R116, R124, R125). -/
def Obligations.DecodedWordIsReencoded : Prop :=
  ∀ (w : Txn) (i : Instr), decode w = .ok i →
    i.wellFormed = true ∧
      (i ≠ .dmaWr → i ≠ .dmaRd → i ≠ .protRd → (∀ d m, i ≠ .protWr d m) → encode i = w)

/-- R131: the refused words are exactly these; a refused word sets REFUSED, does nothing else and halts the block. -/
def Obligations.RefusedWordsAreExactlyTheListedOnes : Prop :=
  (∀ w : Txn, (∃ r, decode w = .error r) ↔
    let f := fieldsOf w
    f.rsvd ≠ 0
      ∨ (f.region = 0x0 ∨ (0xA ≤ f.region ∧ f.region ≤ 0xD))
      ∨ (f.region = 0x5 ∧ 2 ≤ f.sub)
      ∨ ((f.region = 0x6 ∨ f.region = 0x7 ∨ f.region = 0x8 ∨ f.region = 0x9) ∧ f.sub ≠ 0)
      ∨ (1 ≤ f.region ∧ f.region ≤ 8 ∧ f.we = false ∧ (f.mask ≠ 0 ∨ f.data ≠ 0))
      ∨ (f.region = 0x9 ∧ w ≠ 0x9800000000000000)
      ∨ ((f.region = 0xE ∨ f.region = 0xF) ∧ (f.we = false ∨ f.mask ≠ 0))
      ∨ (f.region = 0xE ∧ 5 ≤ f.sub)
      ∨ (f.region = 0xE ∧ (f.data ≠ 0 ∨ ((f.sub = 1 ∨ f.sub = 3 ∨ f.sub = 4) ∧ f.off ≠ 0)))
      ∨ (f.region = 0xF ∧ (f.sub = 0 ∨ f.sub = 1 ∨ f.sub = 4 ∨ f.sub = 5 ∨ f.sub = 7) ∧ f.data ≠ 0)
      ∨ (f.region = 0xF ∧ (f.sub = 2 ∨ f.sub = 3 ∨ f.sub = 6) ∧ 2 ≤ f.data.toNat)
      ∨ (f.region = 0xF ∧ (f.sub = 3 ∨ f.sub = 5) ∧ f.off ≠ 0))
  ∧ ∀ (s : State) (w : Txn) (rest : List Txn) (r : RefuseReason), s.port = w :: rest → boardLegal s.cfg = true →
      halted s = false → decode w = .error r →
      step s = .next { s with port := rest, refused := true, resp := .silent }
        ∧ halted { s with port := rest, refused := true, resp := .silent } = true

/-- R143: the encoding examples decode to the transactions they spell. -/
def Obligations.EncodingExamplesDecode : Prop :=
  decode 0x1B0000A5FFFF3042 = .ok (.tileWr 3 0x00A5 0x3042 0xFFFF)
    ∧ decode 0x130000A500000000 = .ok (.tileRd 3 0x00A5)
    ∧ decode 0x18000010FF001200 = .ok (.tileWr 0 0x0010 0x1200 0xFF00)
    ∧ decode 0x2B000000FFFF0008 = .ok (.rscrWr 3 0x0000 0x0008 0xFFFF)
    ∧ decode 0x49000006FFFF000D = .ok (.ctrlWr 1 6 0x000D 0xFFFF)
    ∧ decode 0x59000032FFFF0078 = .ok (.palWr1 0x0032 0x0078 0xFFFF)
    ∧ decode 0x68000001FFFF2005 = .ok (.sprWr 0x0001 0x2005 0xFFFF)
    ∧ decode 0x7800000000000000 = .ok .dmaWr
    ∧ decode 0x88000000FFFF00F1 = .ok (.protWr 0x00F1 0xFFFF)
    ∧ decode 0x8000000000000000 = .ok .protRd
    ∧ decode 0x9800000000000000 = .ok .frameRender
    ∧ decode 0xFA00000300000001 = .ok (.hDraw 3 .front)
    ∧ decode 0xFD00000000000000 = .ok .hRecompute
    ∧ decode 0xE800000200000000 = .ok (.hLatchscroll 2)

/-! ## Steps, halting, reset -/

/-- A step takes the next word of the stream and performs the transaction it spells (R95, R125; the stream is the
model's, log 1). -/
def Obligations.StepPerformsTheDecodedTransaction : Prop :=
  ∀ (s : State) (w : Txn) (rest : List Txn) (i : Instr), s.port = w :: rest → boardLegal s.cfg = true →
    halted s = false → decode w = .ok i → step s = exec i { s with port := rest }

/-- R431: while FAULT is not none or REFUSED = 1 every step is the identity, and no response is given. -/
def Obligations.HaltedBlockIsStuck : Prop :=
  ∀ s : State, boardLegal s.cfg = true → HaltedSilent s → (s.fault ≠ none ∨ s.refused = true) →
    step s = .next s ∧ s.resp = .silent ∧ ∀ i, exec i s = .next s

/-- On a legal board every step answers a next state and keeps the configuration; with no word pending it holds the
whole state; a word presented on an illegal board is refused (R99, R430, R451, I30; log 2, log 4). -/
def Obligations.OnlyAnIllegalBoardIsRefused : Prop :=
  ∀ s : State,
    (boardLegal s.cfg = true → ∃ t, step s = .next t ∧ t.cfg = s.cfg ∧ (s.port = [] → t = s))
    ∧ (boardLegal s.cfg = false → ∀ w rest, s.port = w :: rest → step s = .refused .illegalBoard)

/-- R470: every value that reset gives. The values it leaves unspecified are not stated. -/
def Obligations.ResetSetsEveryGivenValue : Prop := Launch State.reset

/-- The state after reset meets every invariant of the model, on the default board. -/
def Obligations.ResetIsGood : Prop := Good State.reset ∧ FlipSync State.reset

/-- Every state a reset may leave, whatever its unspecified storage, meets the coherence invariants (R470, R473). -/
def Obligations.LaunchIsCoherent : Prop :=
  ∀ s : State, Launch s → InfoCoherent s ∧ CacheCoherent s ∧ PubCoherent s ∧ FlipSync s ∧ halted s = false

/-! ## Invariants that every step keeps -/

/-- Every array keeps its one canonical form and holds no element outside its window (R82, R437). -/
def Obligations.StepKeepsMemoryForm : Prop :=
  ∀ s t : State, memWf s = true → step s = .next t → memWf t = true

/-- INFO and PCACHE stay coherent with the tile words (R150, R228, R229, R233). -/
def Obligations.StepKeepsCacheCoherence : Prop :=
  ∀ s t : State, InfoCoherent s → CacheCoherent s → step s = .next t → InfoCoherent t ∧ CacheCoherent t

/-- The published palette stays coherent with the palette words (R158, R160, R272, R276). -/
def Obligations.StepKeepsPublishedPalette : Prop :=
  ∀ s t : State, PubCoherent s → step s = .next t → PubCoherent t

/-- COMP and PCACHE hold palette indices, and every latched granularity lies in 1..2^9 (R14, R40). -/
def Obligations.StepKeepsIndexBounds : Prop :=
  ∀ s t : State, IndexBounded s → GranBounded s → step s = .next t → IndexBounded t ∧ GranBounded t

/-- A halted block holds no response, and no step leaves the halted state (R430, R431, R444). -/
def Obligations.StepKeepsHaltedSilent : Prop :=
  ∀ s t : State, HaltedSilent s → step s = .next t → HaltedSilent t ∧ (halted s = true → halted t = true)

/-- Only H.SETFLIP can put a layer's flip out of step with FLIP_PREV (R381). -/
def Obligations.OnlySetflipBreaksFlipSync : Prop :=
  ∀ s t : State, FlipSync s → step s = .next t →
    (∀ w rest l f, s.port = w :: rest → decode w ≠ .ok (.hSetflip l f)) → FlipSync t

/-- Each storage array and each arbiter register is changed by its own transaction only (R89, R277, R322). -/
def Obligations.OnlyItsWriterChangesStorage : Prop :=
  ∀ (s t : State) (w : Txn) (rest : List Txn) (i : Instr), s.port = w :: rest → decode w = .ok i → step s = .next t →
    ((∀ l off d m, i ≠ .tileWr l off d m) → ∀ k, (t.layer k).tile = (s.layer k).tile)
    ∧ ((∀ l off d m, i ≠ .rscrWr l off d m) → ∀ k, (t.layer k).rowtab = (s.layer k).rowtab)
    ∧ ((∀ l off d m, i ≠ .cscrWr l off d m) → ∀ k, (t.layer k).coltab = (s.layer k).coltab)
    ∧ ((∀ b off d m, i ≠ .ctrlWr b off d m) → t.cr = s.cr)
    ∧ ((∀ off d m, i ≠ .palWr0 off d m) → t.pal0 = s.pal0)
    ∧ ((∀ off d m, i ≠ .palWr1 off d m) → t.pal1 = s.pal1)
    ∧ ((∀ off d m, i ≠ .sprWr off d m) → t.sprram = s.sprram)
    ∧ (i ≠ .dmaWr → t.snap = s.snap)
    ∧ ((∀ d m, i ≠ .protWr d m) → t.pstate = s.pstate ∧ t.preadback = s.preadback ∧ t.platch = s.platch)
    ∧ (i ≠ .frameRender → t.frameCnt = s.frameCnt ∧ t.flipPrev = s.flipPrev)

/-! ## CPU bus transactions -/

/-- R150: TILE.WR merges into the folded tile word and sets its DIRTY flag exactly on a change; nothing else changes. -/
def Obligations.TileWriteMergesAndMarksDirty : Prop :=
  ∀ (s : State) (off : Nat) (data mask : Word), halted s = false →
    (∀ l, s.cfg.nl ≤ l → exec (.tileWr l off data mask) s = .next { s with fault := some (.noWindow 0x1 l), resp := .silent })
    ∧ ∀ l x, layerOf s.cfg l = some x →
      let o := off % cellsOf (s.cfg.layer x)
      let old := tileAt (s.layer x) o
      let new := merge old data mask
      ∃ t, exec (.tileWr l off data mask) s = .next t
        ∧ (∀ k p, tileAt (t.layer k) p = if k = x ∧ p = o then new else tileAt (s.layer k) p)
        ∧ (∀ k p, dirtyAt (t.layer k) p = if k = x ∧ p = o ∧ new ≠ old then true else dirtyAt (s.layer k) p)
        ∧ t.resp = .silent
        ∧ { t.setLayer x { t.layer x with tile := (s.layer x).tile, dirty := (s.layer x).dirty } with resp := s.resp } = s

/-- R151: TILE.RD returns the folded tile word and changes nothing. -/
def Obligations.TileReadReturnsTheWord : Prop :=
  ∀ (s : State) (off : Nat), halted s = false →
    (∀ l, s.cfg.nl ≤ l → exec (.tileRd l off) s = .next { s with fault := some (.noWindow 0x1 l), resp := .silent })
    ∧ ∀ l x, layerOf s.cfg l = some x →
      exec (.tileRd l off) s = .next { s with resp := .data (tileAt (s.layer x) (off % cellsOf (s.cfg.layer x))) }

/-- R152, R154: RSCR.WR and CSCR.WR merge into the folded entry of their table; nothing else changes. -/
def Obligations.ScrollTableWritesMerge : Prop :=
  ∀ (s : State) (off : Nat) (data mask : Word), halted s = false →
    (∀ l, s.cfg.nl ≤ l →
      exec (.rscrWr l off data mask) s = .next { s with fault := some (.noWindow 0x2 l), resp := .silent }
        ∧ exec (.cscrWr l off data mask) s = .next { s with fault := some (.noWindow 0x3 l), resp := .silent })
    ∧ ∀ l x, layerOf s.cfg l = some x →
      (let e := off % s.cfg.rowTabN
       ∃ t, exec (.rscrWr l off data mask) s = .next t
         ∧ (∀ k p, rowtabAt (t.layer k) p
             = if k = x ∧ p = e then merge (rowtabAt (s.layer x) e) data mask else rowtabAt (s.layer k) p)
         ∧ t.resp = .silent
         ∧ { t.setLayer x { t.layer x with rowtab := (s.layer x).rowtab } with resp := s.resp } = s)
      ∧ let e := off % s.cfg.colTabN
        ∃ t, exec (.cscrWr l off data mask) s = .next t
          ∧ (∀ k p, coltabAt (t.layer k) p
              = if k = x ∧ p = e then merge (coltabAt (s.layer x) e) data mask else coltabAt (s.layer k) p)
          ∧ t.resp = .silent
          ∧ { t.setLayer x { t.layer x with coltab := (s.layer x).coltab } with resp := s.resp } = s

/-- R153, R155: RSCR.RD and CSCR.RD return the folded table entry and change nothing. -/
def Obligations.ScrollTableReadsReturnTheEntry : Prop :=
  ∀ (s : State) (off : Nat), halted s = false →
    (∀ l, s.cfg.nl ≤ l →
      exec (.rscrRd l off) s = .next { s with fault := some (.noWindow 0x2 l), resp := .silent }
        ∧ exec (.cscrRd l off) s = .next { s with fault := some (.noWindow 0x3 l), resp := .silent })
    ∧ ∀ l x, layerOf s.cfg l = some x →
      exec (.rscrRd l off) s = .next { s with resp := .data (rowtabAt (s.layer x) (off % s.cfg.rowTabN)) }
        ∧ exec (.cscrRd l off) s = .next { s with resp := .data (coltabAt (s.layer x) (off % s.cfg.colTabN)) }

/-- R156 with CB_WORDS for its 16, the model's reading (R7, log 25): CTRL.WR merges into the folded control word of its block; nothing else
changes. -/
def Obligations.ControlWriteMerges : Prop :=
  ∀ (s : State) (b off : Nat) (data mask : Word), halted s = false →
    (s.cfg.ncb ≤ b →
      exec (.ctrlWr b off data mask) s = .next { s with fault := some (.noWindow 0x4 b), resp := .silent })
    ∧ (b < s.cfg.ncb →
      ∃ t, exec (.ctrlWr b off data mask) s = .next t
        ∧ (∀ c w, w < s.cfg.cbWords →
            crAt t c w
              = if c = b ∧ w = off % s.cfg.cbWords then merge (crAt s b (off % s.cfg.cbWords)) data mask else crAt s c w)
        ∧ t.resp = .silent ∧ { t with cr := s.cr, resp := s.resp } = s)

/-- R157, R165: CTRL.RD and DMA.RD return some u16, an open-bus value, and leave the state of the block as it was
(the count of draws is the model's, log 8). -/
def Obligations.OpenBusReadsReturnSomeWord : Prop :=
  ∀ (s : State), halted s = false →
    (∀ b off, s.cfg.ncb ≤ b →
      exec (.ctrlRd b off) s = .next { s with fault := some (.noWindow 0x4 b), resp := .silent })
    ∧ (∀ b off, b < s.cfg.ncb →
      ∃ v : Word, exec (.ctrlRd b off) s = .next { s with resp := .data v, draws := s.draws + 1 })
    ∧ ∃ v : Word, exec .dmaRd s = .next { s with resp := .data v, draws := s.draws + 1 }

/-- R158: PAL.WR bank 0 merges into PAL0 and sets PAL_DIRTY on a change; nothing else changes. -/
def Obligations.PaletteBank0WriteMerges : Prop :=
  ∀ (s : State) (off : Nat) (data mask : Word), halted s = false →
    let i := off % s.cfg.palN
    let old := pal0At s i
    let new := merge old data mask
    ∃ t, exec (.palWr0 off data mask) s = .next t
      ∧ (∀ j, pal0At t j = if j = i then new else pal0At s j)
      ∧ t.palDirty = (if new ≠ old then true else s.palDirty)
      ∧ t.resp = .silent ∧ { t with pal0 := s.pal0, palDirty := s.palDirty, resp := s.resp } = s

/-- R160: PAL.WR bank 1 merges into PAL1 and sets PAL_DIRTY on a change; in PACKED_RGBX it faults. -/
def Obligations.PaletteBank1WriteMerges : Prop :=
  ∀ (s : State) (off : Nat) (data mask : Word), halted s = false →
    let i := off % s.cfg.palN
    let old := pal1At s i
    let new := merge old data mask
    (s.cfg.palFmt = .packedRgbx →
      exec (.palWr1 off data mask) s = .next { s with fault := some (.noWindow 0x5 1), resp := .silent })
    ∧ (s.cfg.palFmt = .splitRgB →
      ∃ t, exec (.palWr1 off data mask) s = .next t
        ∧ (∀ j, pal1At t j = if j = i then new else pal1At s j)
        ∧ t.palDirty = (if new ≠ old then true else s.palDirty)
        ∧ t.resp = .silent ∧ { t with pal1 := s.pal1, palDirty := s.palDirty, resp := s.resp } = s)

/-- R159, R161: PAL.RD returns the stored word of its bank and changes nothing; bank 1 faults in PACKED_RGBX. -/
def Obligations.PaletteReadsReturnTheWord : Prop :=
  ∀ (s : State) (off : Nat), halted s = false →
    exec (.palRd0 off) s = .next { s with resp := .data (pal0At s (off % s.cfg.palN)) }
    ∧ (s.cfg.palFmt = .packedRgbx →
        exec (.palRd1 off) s = .next { s with fault := some (.noWindow 0x5 1), resp := .silent })
    ∧ (s.cfg.palFmt = .splitRgB →
        exec (.palRd1 off) s = .next { s with resp := .data (pal1At s (off % s.cfg.palN)) })

/-- R162, R163: SPR.WR merges into the folded word of live sprite RAM, SNAP and everything else unchanged; SPR.RD returns
the live word, never the snapshot's, and changes nothing. -/
def Obligations.SpriteRamWritesAndReads : Prop :=
  ∀ (s : State) (off : Nat) (data mask : Word), halted s = false →
    let w := off % s.cfg.sprRamWords
    (∃ t, exec (.sprWr off data mask) s = .next t
      ∧ (∀ j, sprramAt t j = if j = w then merge (sprramAt s w) data mask else sprramAt s j)
      ∧ t.resp = .silent ∧ { t with sprram := s.sprram, resp := s.resp } = s)
    ∧ exec (.sprRd off) s = .next { s with resp := .data (sprramAt s w) }

/-- R164: DMA.WR copies every word of live sprite RAM into the snapshot; nothing else changes. -/
def Obligations.DmaCopiesTheWholeSpriteRam : Prop :=
  ∀ (s : State), halted s = false →
    ∃ t, exec .dmaWr s = .next t
      ∧ (∀ w, w < s.cfg.sprRamWords → snapAt t w = sprramAt s w)
      ∧ t.resp = .silent ∧ { t with snap := s.snap, resp := s.resp } = s

/-- R277: a palette word written and then read gives the merged word (the data itself under a full mask), whatever
transactions other than PAL.WR are performed in between, in every bank that exists. -/
def Obligations.PaletteRoundTrip : Prop :=
  ∀ (s : State) (off : Nat) (data mask : Word) (is : List Instr), halted s = false →
    (∀ i ∈ is, ∀ o d m, i ≠ .palWr0 o d m ∧ i ≠ .palWr1 o d m) →
    (∃ t u, exec (.palWr0 off data mask) s = .next t ∧ execAll is t = .next u
      ∧ (halted u = false →
          exec (.palRd0 off) u = .next { u with resp := .data (merge (pal0At s (off % s.cfg.palN)) data mask) }))
    ∧ (s.cfg.palFmt = .splitRgB →
        ∃ t u, exec (.palWr1 off data mask) s = .next t ∧ execAll is t = .next u
          ∧ (halted u = false →
              exec (.palRd1 off) u = .next { u with resp := .data (merge (pal1At s (off % s.cfg.palN)) data mask) }))
    ∧ ∀ old : Word, merge old data 0xFFFF = data

/-! ## The priority arbiter -/

/-- R351: PROT.WR takes the merged key into PLATCH; a key of the table sets PREADBACK and PSTATE; any other key leaves
them; nothing else changes. -/
def Obligations.ProtectionWriteLooksUpTheKey : Prop :=
  ∀ (s : State) (data mask : Word), halted s = false →
    let key := merge s.platch data mask
    (∀ e, prioLookup s.cfg.prioTable key = some e →
      exec (.protWr data mask) s
        = .next { s with platch := key, preadback := e.rb, pstate := e.st, resp := .silent })
    ∧ (prioLookup s.cfg.prioTable key = none →
      exec (.protWr data mask) s = .next { s with platch := key, resp := .silent })

/-- R355: on every legal board the key 0x00F1 sets LEVEL1 and the readback of its entry, whatever the state before. -/
def Obligations.KeyF1SelectsLevel1 : Prop :=
  ∀ (s : State) (data mask : Word), boardLegal s.cfg = true → halted s = false →
    merge s.platch data mask = 0x00F1 →
    ∃ t e, exec (.protWr data mask) s = .next t ∧ prioLookup s.cfg.prioTable 0x00F1 = some e
      ∧ t.pstate = .level1 ∧ t.preadback = e.rb ∧ t.platch = 0x00F1

/-- R352: PROT.RD returns PREADBACK and changes nothing. -/
def Obligations.ProtectionReadReturnsTheReadback : Prop :=
  ∀ (s : State), halted s = false → exec .protRd s = .next { s with resp := .data s.preadback }

/-! ## The tilemap renderer -/

/-- R204: on a legal board every scan function is a bijection between cells and storage offsets. -/
def Obligations.ScanIsABijection : Prop :=
  ∀ (c : Cfg) (l : LayerId), boardLegal c = true →
    let lc := c.layer l
    (∀ col row, col < lc.cols → row < lc.rows → scan lc col row < cellsOf lc ∧ cellOf lc (scan lc col row) = (col, row))
    ∧ ∀ o, o < cellsOf lc → (cellOf lc o).1 < lc.cols ∧ (cellOf lc o).2 < lc.rows
        ∧ scan lc (cellOf lc o).1 (cellOf lc o).2 = o

/-- R207, R208: the fields of a tile word, as numbers. -/
def Obligations.TileWordDecodes : Prop :=
  ∀ w : Word,
    (let i := decodeInfo .simple w
     i.tileIndex.toNat = w.toNat % 4096 ∧ i.colorGroup.toNat = w.toNat / 4096
       ∧ i.flipX = false ∧ i.flipY = false ∧ i.priorityBit = false)
    ∧ (let i := decodeInfo .banked w
       i.tileIndex.toNat = w.toNat % 256 + 256 * (w.toNat / 16384) ∧ i.colorGroup.toNat = w.toNat / 256 % 8
         ∧ i.priorityBit = w.getLsbD 11 ∧ i.flipX = w.getLsbD 12 ∧ i.flipY = w.getLsbD 13)

/-- R216, R217, R218, R220: the layer position that an unflipped screen position shows in each mode; WHOLE reads neither
scroll table, ROW only ROWTAB, COL only COLTAB. -/
def Obligations.ScrollMappingFollowsTheMode : Prop :=
  (∀ (s : State) (l : LayerId) (ux uy : Nat),
    let lc := s.cfg.layer l
    let sc := (s.layer l).scr
    let lw := lc.cols * lc.cw
    let lh := lc.rows * lc.ch
    let bx := if s.cfg.scrollCombine = .add then sc.sx.toNat else 0
    let bY := if s.cfg.scrollCombine = .add then sc.sy.toNat else 0
    (sc.mode = .whole → scrollMap s l ux uy = ((ux + sc.sx.toNat) % lw, (uy + sc.sy.toNat) % lh))
    ∧ (sc.mode = .row →
        let ly := (uy + sc.sy.toNat) % lh
        scrollMap s l ux uy = ((ux + bx + (rowtabAt (s.layer l) (ly / sc.gran % s.cfg.rowTabN)).toNat) % lw, ly))
    ∧ (sc.mode = .col →
        let lx := (ux + sc.sx.toNat) % lw
        scrollMap s l ux uy = (lx, (uy + bY + (coltabAt (s.layer l) (lx / sc.gran % s.cfg.colTabN)).toNat) % lh)))
  ∧ ∀ (c : Cfg) (lc : LayerCfg) (x x' : LayerState) (sc : Scroll),
      (sc.mode = .whole ∨ (sc.mode = .row ∧ x'.rowtab = x.rowtab) ∨ (sc.mode = .col ∧ x'.coltab = x.coltab)) →
      ∀ ux uy, scrollWith c lc x' sc ux uy = scrollWith c lc x sc ux uy

/-- R228: H.UPDATE decodes every dirty cell of its layer, marks it stale and clears its DIRTY flag; nothing else
changes; a layer the board lacks faults. -/
def Obligations.UpdateDecodesDirtyCells : Prop :=
  ∀ (s : State), halted s = false →
    (∀ l, s.cfg.nl ≤ l → exec (.hUpdate l) s = .next { s with fault := some (.badArg .hUpdate l), resp := .silent })
    ∧ ∀ l x, layerOf s.cfg l = some x →
      ∃ t, exec (.hUpdate l) s = .next t
        ∧ (∀ o, o < cellsOf (s.cfg.layer x) →
            infoAt (t.layer x) o
                = (if dirtyAt (s.layer x) o = true then decodeInfo (s.cfg.layer x).dec (tileAt (s.layer x) o)
                   else infoAt (s.layer x) o)
              ∧ staleAt (t.layer x) o = (if dirtyAt (s.layer x) o = true then true else staleAt (s.layer x) o)
              ∧ dirtyAt (t.layer x) o = false)
        ∧ t.resp = .silent
        ∧ { t.setLayer x { t.layer x with
              info := (s.layer x).info, stale := (s.layer x).stale, dirty := (s.layer x).dirty } with resp := s.resp } = s

/-- R229, with R210, R212 and R213 as numbers: H.RENDER writes every pixel of every stale cell from INFO (the pen at the
flipped graphics coordinate, the palette index, the split class), keeps the pixels of the others, and clears STALE;
nothing else changes; a layer the board lacks faults. -/
def Obligations.RenderMaterialisesStaleCells : Prop :=
  ∀ (s : State), boardLegal s.cfg = true → halted s = false →
    (∀ l, s.cfg.nl ≤ l → exec (.hRender l) s = .next { s with fault := some (.badArg .hRender l), resp := .silent })
    ∧ ∀ l x, layerOf s.cfg l = some x →
      let lc := s.cfg.layer x
      ∃ t, exec (.hRender l) s = .next t
        ∧ (∀ o px py, o < cellsOf lc → px < lc.cw → py < lc.ch →
            let lx := (cellOf lc o).1 * lc.cw + px
            let ly := (cellOf lc o).2 * lc.ch + py
            let i := infoAt (s.layer x) o
            let gx := if i.flipX = true then lc.cw - 1 - px else px
            let gy := if i.flipY = true then lc.ch - 1 - py else py
            let q := pcacheAt lc (t.layer x) lx ly
            (staleAt (s.layer x) o = true →
              q.pen = tileGfx s.cfg lc.gfxBank i.tileIndex.toNat gx gy
                ∧ q.idx = (lc.palBase + 16 * i.colorGroup.toNat + q.pen.toNat) % s.cfg.palN
                ∧ (q.cls = .front ↔ lc.split = true ∧ i.priorityBit = true ∧ lc.splitPen.toNat ≤ q.pen.toNat))
            ∧ (staleAt (s.layer x) o = false → q = pcacheAt lc (s.layer x) lx ly))
        ∧ (∀ o, o < cellsOf lc → staleAt (t.layer x) o = false)
        ∧ t.resp = .silent
        ∧ { t.setLayer x { t.layer x with pcache := (s.layer x).pcache, stale := (s.layer x).stale } with
              resp := s.resp } = s

/-- R232: a second H.RENDER with nothing in between changes nothing. -/
def Obligations.RenderIsIdempotent : Prop :=
  ∀ (s t : State) (l : Nat), boardLegal s.cfg = true → exec (.hRender l) s = .next t → exec (.hRender l) t = .next t

/-- R222, R223, R225: H.DRAW writes the pixels its pass draws, from the pixel cache, through the flip and the scroll
mapping, and leaves every other pixel and everything else; a layer the board lacks faults. -/
def Obligations.DrawBlitsThePass : Prop :=
  ∀ (s : State) (pass : LayerPass), halted s = false →
    (∀ l, s.cfg.nl ≤ l → exec (.hDraw l pass) s = .next { s with fault := some (.badArg .hDraw l), resp := .silent })
    ∧ ∀ l x, layerOf s.cfg l = some x →
      let lc := s.cfg.layer x
      ∃ t, exec (.hDraw l pass) s = .next t
        ∧ (∀ X Y, X < s.cfg.screenW → Y < s.cfg.screenH →
            let ux := if (s.layer x).flip = true then s.cfg.screenW - 1 - X else X
            let uy := if (s.layer x).flip = true then s.cfg.screenH - 1 - Y else Y
            let p := scrollMap s x ux uy
            let q := pcacheAt lc (s.layer x) p.1 p.2
            let draws := (pass = .back ∧ (lc.isOpaque = true ∨ q.pen ≠ lc.transPen))
              ∨ (pass = .front ∧ q.cls = .front ∧ q.pen ≠ lc.transPen)
            (draws → compAt t X Y = q.idx) ∧ (¬ draws → compAt t X Y = compAt s X Y))
        ∧ t.resp = .silent ∧ { t with comp := s.comp, resp := s.resp } = s

/-- R230, R231: H.MARKALLDIRTY sets every DIRTY flag of its layer; H.SETFLIP sets FLIP too, even to its own value;
nothing else changes; a layer the board lacks faults. -/
def Obligations.MarkAllDirtyAndSetflip : Prop :=
  ∀ (s : State) (f : Bool), halted s = false →
    (∀ l, s.cfg.nl ≤ l →
      exec (.hMarkalldirty l) s = .next { s with fault := some (.badArg .hMarkalldirty l), resp := .silent }
        ∧ exec (.hSetflip l f) s = .next { s with fault := some (.badArg .hSetflip l), resp := .silent })
    ∧ ∀ l x, layerOf s.cfg l = some x →
      (∃ t, exec (.hMarkalldirty l) s = .next t ∧ (∀ o, o < cellsOf (s.cfg.layer x) → dirtyAt (t.layer x) o = true)
        ∧ t.resp = .silent
        ∧ { t.setLayer x { t.layer x with dirty := (s.layer x).dirty } with resp := s.resp } = s)
      ∧ ∃ t, exec (.hSetflip l f) s = .next t ∧ (t.layer x).flip = f
        ∧ (∀ o, o < cellsOf (s.cfg.layer x) → dirtyAt (t.layer x) o = true)
        ∧ t.resp = .silent
        ∧ { t.setLayer x { t.layer x with dirty := (s.layer x).dirty, flip := (s.layer x).flip } with resp := s.resp } = s

/-- R395, with R215: H.LATCHSCROLL sets SCR[L] from the control words of the layer's slot; nothing else changes; a layer
the board lacks faults. -/
def Obligations.LatchscrollResolvesTheScroll : Prop :=
  ∀ (s : State), halted s = false →
    (∀ l, s.cfg.nl ≤ l → exec (.hLatchscroll l) s = .next { s with fault := some (.badArg .hLatchscroll l), resp := .silent })
    ∧ ∀ l x, layerOf s.cfg l = some x →
      let lc := s.cfg.layer x
      let wx := if lc.slot = .a then 1 else 3
      let wy := if lc.slot = .a then 2 else 4
      let m := (crAt s lc.cb (if lc.slot = .a then 5 else 6)).toNat
      exec (.hLatchscroll l) s
        = .next { s.setLayer x { s.layer x with
            scr := { mode := if m % 4 = 0 then .whole else if m % 4 = 1 then .row else if m % 4 = 2 then .col
                       else s.cfg.reservedMode
                     sx := crAt s lc.cb wx, sy := crAt s lc.cb wy
                     gran := 2 ^ (m / 4 % 8 + s.cfg.granBase) } } with resp := .silent }

/-! ## The sprite compositor -/

/-- R11: sext of the low n bits. -/
def Obligations.SextReadsTwosComplement : Prop :=
  ∀ (n : Nat) (v : Word), 0 < n → n ≤ 16 →
    sext n v = ((v.toNat % 2 ^ n : Nat) : Int) - (if v.getLsbD (n - 1) = true then (2 ^ n : Int) else 0)

/-- R300-R303, R306, R307, R310, R311: the cells of an entry, listed in chain order: code, screen position with the
reflection and the screen flip, flips and colour group, from the entry's words. SPR_CELL stands for the rules' 16 and
SPR_ENTRY_WORDS for their 4 (R7; the model's reading, log 25), SPR_CELL being one side (log 26). -/
def Obligations.ChainedCellsStack : Prop :=
  ∀ (s : State) (flip : Bool) (e : Nat),
    let w0 := snapAt s (s.cfg.sprEntryWords * e)
    let w1 := snapAt s (s.cfg.sprEntryWords * e + 1)
    let w2 := snapAt s (s.cfg.sprEntryWords * e + 2)
    let n := 2 ^ (w1.toNat / 4096 % 4)
    let side := (s.cfg.sprCell : Int)
    (spriteCells s flip e).length = n
    ∧ ∀ k, k < n →
      let q := spriteCell s flip e k
      let x := sext s.cfg.sprPosBits w2
      let raw := if w0.getLsbD 14 = true then sext s.cfg.sprPosBits w0 + side * (k : Int)
        else sext s.cfg.sprPosBits w0 - side * (k : Int)
      let y := if s.cfg.sprYReflect = .reflect240 then 240 - raw else raw
      (spriteCells s flip e)[k]? = some q
      ∧ q.code = (w1.toNat % 4096 + k) % 4096
      ∧ q.cx = (if flip = true then (s.cfg.screenW : Int) - side - x else x)
      ∧ q.cy = (if flip = true then (s.cfg.screenH : Int) - side - y else y)
      ∧ q.fx = (if flip = true then !w0.getLsbD 13 else w0.getLsbD 13)
      ∧ q.fy = (if flip = true then !w0.getLsbD 14 else w0.getLsbD 14)
      ∧ q.color.toNat = w2.toNat / 4096

/-- The screen flip is a rotation by 180 degrees: the pixel of a cell at (X, Y) lands at (SW-1-X, SH-1-Y) with the same
pen (R311, R312). SPR_CELL stands for the 16 of R311 and SPR_CELL - 1 for the 15 of R312 (R7; the model's reading, log 25),
one side for width and height (log 26). -/
def Obligations.ScreenFlipRotatesTheCell : Prop :=
  ∀ (c : Cfg) (q : SprCell) (px py : Nat), px < c.sprCell → py < c.sprCell →
    let r := flipCell c true q
    r.cx + ((c.sprCell - 1 - px : Nat) : Int) = (c.screenW : Int) - 1 - (q.cx + (px : Int))
    ∧ r.cy + ((c.sprCell - 1 - py : Nat) : Int) = (c.screenH : Int) - 1 - (q.cy + (py : Int))
    ∧ cellPen c r (c.sprCell - 1 - px) (c.sprCell - 1 - py) = cellPen c q px py

/-- R320 with SPR_CELL for its 16, the model's reading (R7, log 25), one side for both axes (log 26): a cell
that lies off the screen writes no pixel. -/
def Obligations.OffscreenCellWritesNothing : Prop :=
  ∀ (c : Cfg) (q : SprCell),
    (q.cx ≤ -(c.sprCell : Int) ∨ (c.screenW : Int) ≤ q.cx ∨ q.cy ≤ -(c.sprCell : Int) ∨ (c.screenH : Int) ≤ q.cy) →
      cellWrites c q = []

/-- What one cell leaves at a screen pixel: the palette index SPR_PAL_BASE + 16*COLOR + pen of its own pen there, read at
the flipped graphics coordinate, where that pen is not transparent; else nothing (R308, R312, R317, R318, R319).
SPR_CELL stands for the rules' 16 and SPR_CELL - 1 for their 15 (R7; the model's reading, log 25), one side for both axes
(log 26). -/
def Obligations.CellPaintsItsPixels : Prop :=
  ∀ (c : Cfg) (q : SprCell) (X Y old : Nat), X < c.screenW → Y < c.screenH →
    lastWrite (cellWrites c q) (screenKey c X Y) old
      = (let dx := (X : Int) - q.cx
         let dy := (Y : Int) - q.cy
         let gx := if q.fx = true then c.sprCell - 1 - dx.toNat else dx.toNat
         let gy := if q.fy = true then c.sprCell - 1 - dy.toNat else dy.toNat
         let pen := sprGfx c q.code gx gy
         if 0 ≤ dx ∧ dx < (c.sprCell : Int) ∧ 0 ≤ dy ∧ dy < (c.sprCell : Int) ∧ pen ≠ c.sprTransPen
         then (c.sprPalBase + 16 * q.color.toNat + pen.toNat) % c.palN else old)

/-- R319: H.SPRDRAW leaves at each screen pixel the last cell, in walk order and then chain order, of the entries its
pass draws, and changes nothing else. -/
def Obligations.SpriteDrawPaintsInWalkOrder : Prop :=
  ∀ (s : State) (pass : SprPass), halted s = false →
    ∃ t, exec (.hSprdraw pass) s = .next t
      ∧ (∀ X Y, X < s.cfg.screenW → Y < s.cfg.screenH →
          compAt t X Y
            = ((drawnEntries s pass).flatMap fun e => spriteCells s s.flipPrev e).foldl
                (fun acc q => lastWrite (cellWrites s.cfg q) (screenKey s.cfg X Y) acc) (compAt s X Y))
      ∧ t.resp = .silent ∧ { t with comp := s.comp, resp := s.resp } = s

/-- The entries a pass draws, in walk order (descending under DESC, ascending under ASC): used, of the pass's PRIO, and not
flashing on the skipped parity; under STOP also with no unused entry earlier in the walk (R305, R313, R314, R316). -/
def Obligations.PassDrawsItsEntries : Prop :=
  ∀ (s : State) (pass : SprPass),
    (s.cfg.sprOrder = .desc → (drawnEntries s pass).Pairwise fun a b => b < a)
    ∧ (s.cfg.sprOrder = .asc → (drawnEntries s pass).Pairwise fun a b => a < b)
    ∧ ∀ e,
      let drawable := e < s.cfg.sprN ∧ entryTile s e ≠ s.cfg.sprUnusedTile
        ∧ ((entryWord s e 2).getLsbD 11 = true ↔ pass = .high)
        ∧ ¬ ((entryWord s e 0).getLsbD 12 = true ∧ s.frameCnt.getLsbD 0 = s.cfg.sprFlashSkipParity)
      (s.cfg.sprUnusedAction = .skip → (e ∈ drawnEntries s pass ↔ drawable))
      ∧ (s.cfg.sprUnusedAction = .stop → s.cfg.sprOrder = .desc →
          (e ∈ drawnEntries s pass ↔
            drawable ∧ ∀ d, e ≤ d → d < s.cfg.sprN → entryTile s d ≠ s.cfg.sprUnusedTile))
      ∧ (s.cfg.sprUnusedAction = .stop → s.cfg.sprOrder = .asc →
          (e ∈ drawnEntries s pass ↔ drawable ∧ ∀ d, d ≤ e → entryTile s d ≠ s.cfg.sprUnusedTile))

/-! ## The palette cache controller -/

/-- R261, R262: the colour of an entry in both formats, as numbers. -/
def Obligations.ColourConversion : Prop :=
  ∀ (s : State) (i : Nat),
    (s.cfg.palFmt = .splitRgB →
      (rgbOf s i).r.toNat = (pal0At s i).toNat % 256 ∧ (rgbOf s i).g.toNat = (pal0At s i).toNat / 256
        ∧ (rgbOf s i).b.toNat = (pal1At s i).toNat % 256)
    ∧ (s.cfg.palFmt = .packedRgbx →
      (rgbOf s i).r.toNat = 17 * ((pal0At s i).toNat / 4096) ∧ (rgbOf s i).g.toNat = 17 * ((pal0At s i).toNat / 256 % 16)
        ∧ (rgbOf s i).b.toNat = 17 * ((pal0At s i).toNat / 16 % 16))

/-- R270, R396: H.MARKUSED sets one used flag; H.CLEARUSED clears every used flag; neither changes anything else. -/
def Obligations.UsedFlagsAreMarkedAndCleared : Prop :=
  ∀ (s : State), halted s = false →
    (∀ i, s.cfg.palN ≤ i → exec (.hMarkused i) s = .next { s with fault := some (.badArg .hMarkused i), resp := .silent })
    ∧ (∀ i, i < s.cfg.palN → ∃ t, exec (.hMarkused i) s = .next t
        ∧ (∀ j, usedAt t j = if j = i then true else usedAt s j)
        ∧ t.resp = .silent ∧ { t with used := s.used, resp := s.resp } = s)
    ∧ ∃ t, exec .hClearused s = .next t ∧ (∀ j, j < s.cfg.palN → usedAt t j = false)
        ∧ t.resp = .silent ∧ { t with used := s.used, resp := s.resp } = s

/-- R272, R274: H.RECOMPUTE runs if PAL_DIRTY or a used flag changed; it publishes every used entry, and answers 1
exactly when a published colour changed; if it does not run it answers 0 and changes nothing. -/
def Obligations.RecomputePublishesUsedColours : Prop :=
  ∀ (s : State), halted s = false →
    let runs := s.palDirty = true ∨ ∃ i, i < s.cfg.palN ∧ usedAt s i ≠ usedPrevAt s i
    let changes := ∃ i, i < s.cfg.palN ∧ usedAt s i = true ∧ pubAt s i ≠ rgbOf s i
    (¬ runs → exec .hRecompute s = .next { s with resp := .data 0 })
    ∧ (runs → ∃ t, exec .hRecompute s = .next t
        ∧ (∀ i, i < s.cfg.palN → pubAt t i = if usedAt s i = true then rgbOf s i else pubAt s i)
        ∧ (∀ i, usedPrevAt t i = usedAt s i) ∧ t.palDirty = false
        ∧ (changes → t.resp = .data 1) ∧ (¬ changes → t.resp = .data 0)
        ∧ { t with pub := s.pub, usedPrev := s.usedPrev, palDirty := s.palDirty, resp := s.resp } = s)

/-- R275: H.INVALIDATE sets every STALE flag of its layer and changes nothing else. -/
def Obligations.InvalidateMarksEveryCellStale : Prop :=
  ∀ (s : State) (l : Nat), halted s = false →
    (s.cfg.nl ≤ l → exec (.hInvalidate l) s = .next { s with fault := some (.badArg .hInvalidate l), resp := .silent })
    ∧ ∀ x, layerOf s.cfg l = some x →
      ∃ t, exec (.hInvalidate l) s = .next t ∧ (∀ o, o < cellsOf (s.cfg.layer x) → staleAt (t.layer x) o = true)
        ∧ t.resp = .silent
        ∧ { t.setLayer x { t.layer x with stale := (s.layer x).stale } with resp := s.resp } = s

/-! ## The frame sequencer -/

/-- R397, R398: H.FILL writes the backdrop at every pixel; H.OUTPUT turns COMP into OUT through PUB and leaves FRAME_CNT;
neither changes anything else. -/
def Obligations.FillAndOutput : Prop :=
  ∀ (s : State), halted s = false →
    (∃ t, exec .hFill s = .next t
      ∧ (∀ x y, x < s.cfg.screenW → y < s.cfg.screenH → compAt t x y = s.cfg.backdrop)
      ∧ t.resp = .silent ∧ { t with comp := s.comp, resp := s.resp } = s)
    ∧ ∃ t, exec .hOutput s = .next t
      ∧ (∀ x y, x < s.cfg.screenW → y < s.cfg.screenH → outAt t x y = pubAt s (compAt s x y))
      ∧ t.resp = .silent ∧ { t with out := s.out, resp := s.resp } = s

/-- FRAME.RENDER completes in every running state: the counter advances modulo 2^32, the frame is the response, the
flip bit is polled, and the storage the CPU writes is unchanged (R380, R381, R389, R391). -/
def Obligations.FrameRenderCompletes : Prop :=
  ∀ (s : State), halted s = false →
    ∃ t, exec .frameRender s = .next t
      ∧ t.frameCnt.toNat = (s.frameCnt.toNat + 1) % 2 ^ 32 ∧ t.resp = .frame
      ∧ t.flipPrev = (crAt s s.cfg.flipBlock 0).getLsbD s.cfg.flipBit
      ∧ SameStorage s t ∧ t.fault = s.fault ∧ t.refused = s.refused ∧ t.port = s.port ∧ t.draws = s.draws

/-- After a frame every DIRTY and STALE flag is clear, PAL_DIRTY is 0, every used entry is published and USED_PREV agrees
with USED (R276, R383, R385). -/
def Obligations.FrameLeavesTheCachesClean : Prop :=
  ∀ (s : State), boardLegal s.cfg = true → PubCoherent s → halted s = false →
    ∃ t, exec .frameRender s = .next t
      ∧ (∀ l o, o < cellsOf (s.cfg.layer l) → dirtyAt (t.layer l) o = false ∧ staleAt (t.layer l) o = false)
      ∧ t.palDirty = false
      ∧ ∀ i, i < s.cfg.palN → usedPrevAt t i = usedAt t i ∧ (usedAt t i = true → pubAt t i = rgbOf s i)

/-- R271, R384: after a frame an entry is used exactly when it lies in the colour group of a cell that some screen position
shows, or in that of a live sprite entry (used, with no unused entry earlier in the walk under STOP), or is the backdrop. -/
def Obligations.FrameMarksExactlyTheSampledColours : Prop :=
  ∀ (s : State), boardLegal s.cfg = true → InfoCoherent s → halted s = false →
    ∃ t, exec .frameRender s = .next t ∧ ∀ i, i < s.cfg.palN →
      let shown := ∃ l ux uy pen, ux < s.cfg.screenW ∧ uy < s.cfg.screenH ∧ pen < 16 ∧
        let lc := s.cfg.layer l
        let p := scrollWith s.cfg lc (s.layer l) (resolveScroll l s) ux uy
        let w := tileAt (s.layer l) (scan lc (p.1 / lc.cw) (p.2 / lc.ch))
        i = (lc.palBase + 16 * (decodeInfo lc.dec w).colorGroup.toNat + pen) % s.cfg.palN
      let live := fun e => e < s.cfg.sprN ∧ entryTile s e ≠ s.cfg.sprUnusedTile
        ∧ (s.cfg.sprUnusedAction = .stop → ∀ d, d < s.cfg.sprN →
            ((s.cfg.sprOrder = .desc ∧ e < d) ∨ (s.cfg.sprOrder = .asc ∧ d < e)) → entryTile s d ≠ s.cfg.sprUnusedTile)
      let sprite := ∃ e pen, live e ∧ pen < 16
        ∧ i = (s.cfg.sprPalBase + 16 * ((entryWord s e 2).toNat / 4096) + pen) % s.cfg.palN
      (usedAt t i = true ↔ shown ∨ sprite ∨ i = s.cfg.backdrop)

/-- R386, R387, R390: FRAMEFN of a pixel is the colour of what the nine draws leave over the backdrop, spelled out: BG back,
LOW sprites, the mid layers' back passes in the order PRIO_ORDER(PSTATE) gives, HIGH sprites, BG front, the mid layers'
front passes, FG back; each layer pass takes LPIX (R210-R214) at the scroll map of the flipped position. -/
def Obligations.FramefnIsTheChainOfNineDraws : Prop :=
  ∀ (s : State) (x y : Nat),
    let c := s.cfg
    let f := (crAt s c.flipBlock 0).getLsbD c.flipBit
    let ux := if f = true then c.screenW - 1 - x else x
    let uy := if f = true then c.screenH - 1 - y else y
    let pos := fun l => scrollWith c (c.layer l) (s.layer l) (resolveScroll l s) ux uy
    let info := fun l =>
      let lc := c.layer l
      decodeInfo lc.dec (tileAt (s.layer l) (scan lc ((pos l).1 / lc.cw) ((pos l).2 / lc.ch)))
    let pen := fun l =>
      let lc := c.layer l
      let px := (pos l).1 % lc.cw
      let py := (pos l).2 % lc.ch
      tileGfx c lc.gfxBank (info l).tileIndex.toNat (if (info l).flipX = true then lc.cw - 1 - px else px)
        (if (info l).flipY = true then lc.ch - 1 - py else py)
    let idx := fun l => ((c.layer l).palBase + 16 * (info l).colorGroup.toNat + (pen l).toNat) % c.palN
    let back := fun l old =>
      if (c.layer l).isOpaque = true ∨ pen l ≠ (c.layer l).transPen then idx l else old
    let front := fun l old =>
      if (c.layer l).split = true ∧ (info l).priorityBit = true ∧ (c.layer l).splitPen.toNat ≤ (pen l).toNat
        ∧ pen l ≠ (c.layer l).transPen then idx l else old
    let sprites := fun pass old => ((drawnEntries s pass).flatMap fun e => spriteCells s f e).foldl
      (fun acc q => lastWrite (cellWrites c q) (screenKey c x y) acc) old
    let frame := fun m1 m2 =>
      back .fg (front m2 (front m1 (front .bg (sprites .high (back m2 (back m1 (sprites .low (back .bg c.backdrop))))))))
    frameFn s x y = rgbOf s (frameIndex s x y)
    ∧ (prioOrderAt c.prioOrder s.pstate = .ab → frameIndex s x y = frame .mida .midb)
    ∧ (prioOrderAt c.prioOrder s.pstate = .ba → frameIndex s x y = frame .midb .mida)

/-- The frame returned is FRAMEFN of the storage at its start: every cache, flag and published colour is
microarchitectural (R390). -/
def Obligations.FrameIsAFunctionOfTheStorage : Prop :=
  ∀ (s : State), Good s → FlipSync s → halted s = false →
    ∃ t, exec .frameRender s = .next t
      ∧ ∀ x y, x < s.cfg.screenW → y < s.cfg.screenH → outAt t x y = frameFn s x y

/-! ## Faults -/

/-- R432, R433: the NO_WINDOW and BAD_ARG faults, each with no other effect. On a legal board the numbers below NL are
0 BG, 1 MIDA, 2 MIDB and 3 FG (R9, R392). -/
def Obligations.AbsentInstancesFault : Prop :=
  (∀ (s : State) (n off : Nat) (d m : Word) (pass : LayerPass) (f : Bool), halted s = false →
    let window := fun i region sub => exec i s = .next { s with fault := some (.noWindow region sub), resp := .silent }
    let arg := fun i op => exec i s = .next { s with fault := some (.badArg op n), resp := .silent }
    (s.cfg.nl ≤ n →
      window (.tileWr n off d m) 0x1 n ∧ window (.tileRd n off) 0x1 n ∧ window (.rscrWr n off d m) 0x2 n
        ∧ window (.rscrRd n off) 0x2 n ∧ window (.cscrWr n off d m) 0x3 n ∧ window (.cscrRd n off) 0x3 n)
    ∧ (s.cfg.ncb ≤ n → window (.ctrlWr n off d m) 0x4 n ∧ window (.ctrlRd n off) 0x4 n)
    ∧ (s.cfg.palFmt = .packedRgbx → window (.palWr1 off d m) 0x5 1 ∧ window (.palRd1 off) 0x5 1)
    ∧ (s.cfg.nl ≤ n →
      arg (.hUpdate n) .hUpdate ∧ arg (.hRender n) .hRender ∧ arg (.hDraw n pass) .hDraw
        ∧ arg (.hSetflip n f) .hSetflip ∧ arg (.hMarkalldirty n) .hMarkalldirty
        ∧ arg (.hLatchscroll n) .hLatchscroll ∧ arg (.hInvalidate n) .hInvalidate)
    ∧ (s.cfg.palN ≤ n → arg (.hMarkused n) .hMarkused))
  ∧ ∀ c : Cfg, boardLegal c = true →
      c.nl = 4 ∧ layerOf c 0 = some .bg ∧ layerOf c 1 = some .mida ∧ layerOf c 2 = some .midb ∧ layerOf c 3 = some .fg

/-! ## The CPU side -/

/-- A CPU byte write changes its own byte of the word and keeps the byte of every address on the other lane, under every
LANE_MAP; on the default board the even address is the high lane (R84, R85, R206; the form of the map is log 15). -/
def Obligations.ByteWriteChangesOneLane : Prop :=
  (∀ (m : LaneMap) (addr : Nat) (old : Word) (v : BitVec 8),
    let new := merge old (byteOnLanes v) (laneMask m addr)
    laneOf m addr new = v
    ∧ (∀ other, laneAt m other ≠ laneAt m addr → laneOf m other new = laneOf m other old)
    ∧ (laneAt m addr = .high → laneMask m addr = 0xFF00 ∧ (laneOf m addr old).toNat = old.toNat / 256)
    ∧ (laneAt m addr = .low → laneMask m addr = 0x00FF ∧ (laneOf m addr old).toNat = old.toNat % 256))
  ∧ ∀ addr, laneMask Config.defaultBoard.laneMap addr = if addr % 2 = 0 then 0xFF00 else 0x00FF
end

