-- ==== Sys2Proof/Laws/State.lean ====
section
/-!
SUPPORT. One lemma for each field and each named update of the state, true by rfl, so that no later proof unfolds an
update; and the layers of an updated state.
-/

namespace Sys2Proof.Machine

variable (s : State)

/-! ## setLayer -/

@[simp] theorem State.setLayer_cfg (l : LayerId) (x : LayerState) : (s.setLayer l x).cfg = s.cfg := rfl

@[simp] theorem State.setLayer_bg (l : LayerId) (x : LayerState) :
    (s.setLayer l x).bg = if l = .bg then x else s.bg := rfl

@[simp] theorem State.setLayer_mida (l : LayerId) (x : LayerState) :
    (s.setLayer l x).mida = if l = .mida then x else s.mida := rfl

@[simp] theorem State.setLayer_midb (l : LayerId) (x : LayerState) :
    (s.setLayer l x).midb = if l = .midb then x else s.midb := rfl

@[simp] theorem State.setLayer_fg (l : LayerId) (x : LayerState) :
    (s.setLayer l x).fg = if l = .fg then x else s.fg := rfl

@[simp] theorem State.setLayer_cr (l : LayerId) (x : LayerState) : (s.setLayer l x).cr = s.cr := rfl

@[simp] theorem State.setLayer_pal0 (l : LayerId) (x : LayerState) : (s.setLayer l x).pal0 = s.pal0 := rfl

@[simp] theorem State.setLayer_pal1 (l : LayerId) (x : LayerState) : (s.setLayer l x).pal1 = s.pal1 := rfl

@[simp] theorem State.setLayer_palDirty (l : LayerId) (x : LayerState) : (s.setLayer l x).palDirty = s.palDirty := rfl

@[simp] theorem State.setLayer_used (l : LayerId) (x : LayerState) : (s.setLayer l x).used = s.used := rfl

@[simp] theorem State.setLayer_usedPrev (l : LayerId) (x : LayerState) : (s.setLayer l x).usedPrev = s.usedPrev := rfl

@[simp] theorem State.setLayer_pub (l : LayerId) (x : LayerState) : (s.setLayer l x).pub = s.pub := rfl

@[simp] theorem State.setLayer_sprram (l : LayerId) (x : LayerState) : (s.setLayer l x).sprram = s.sprram := rfl

@[simp] theorem State.setLayer_snap (l : LayerId) (x : LayerState) : (s.setLayer l x).snap = s.snap := rfl

@[simp] theorem State.setLayer_pstate (l : LayerId) (x : LayerState) : (s.setLayer l x).pstate = s.pstate := rfl

@[simp] theorem State.setLayer_preadback (l : LayerId) (x : LayerState) : (s.setLayer l x).preadback = s.preadback := rfl

@[simp] theorem State.setLayer_platch (l : LayerId) (x : LayerState) : (s.setLayer l x).platch = s.platch := rfl

@[simp] theorem State.setLayer_flipPrev (l : LayerId) (x : LayerState) : (s.setLayer l x).flipPrev = s.flipPrev := rfl

@[simp] theorem State.setLayer_frameCnt (l : LayerId) (x : LayerState) : (s.setLayer l x).frameCnt = s.frameCnt := rfl

@[simp] theorem State.setLayer_comp (l : LayerId) (x : LayerState) : (s.setLayer l x).comp = s.comp := rfl

@[simp] theorem State.setLayer_out (l : LayerId) (x : LayerState) : (s.setLayer l x).out = s.out := rfl

@[simp] theorem State.setLayer_fault (l : LayerId) (x : LayerState) : (s.setLayer l x).fault = s.fault := rfl

@[simp] theorem State.setLayer_refused (l : LayerId) (x : LayerState) : (s.setLayer l x).refused = s.refused := rfl

@[simp] theorem State.setLayer_port (l : LayerId) (x : LayerState) : (s.setLayer l x).port = s.port := rfl

@[simp] theorem State.setLayer_resp (l : LayerId) (x : LayerState) : (s.setLayer l x).resp = s.resp := rfl

@[simp] theorem State.setLayer_draws (l : LayerId) (x : LayerState) : (s.setLayer l x).draws = s.draws := rfl

/-- A layer of a state with a layer replaced. -/
theorem State.layer_setLayer (l k : LayerId) (x : LayerState) :
    (s.setLayer l x).layer k = if k = l then x else s.layer k := by
  cases l <;> cases k <;> rfl

@[simp] theorem State.layer_setLayer_same (l : LayerId) (x : LayerState) : (s.setLayer l x).layer l = x := by
  simp [State.layer_setLayer]

theorem State.layer_setLayer_other {l k : LayerId} (x : LayerState) (h : k ≠ l) :
    (s.setLayer l x).layer k = s.layer k := by
  simp [State.layer_setLayer, h]

/-- Replacing a layer by itself changes nothing. -/
@[simp] theorem State.setLayer_layer (l : LayerId) : s.setLayer l (s.layer l) = s := by
  cases l <;> rfl

@[simp] theorem State.setLayer_setLayer (l : LayerId) (x y : LayerState) :
    (s.setLayer l x).setLayer l y = s.setLayer l y := by
  cases l <;> rfl

/-! ## respond -/

@[simp] theorem respond_cfg (r : Response) : (respond r s).cfg = s.cfg := rfl

@[simp] theorem respond_bg (r : Response) : (respond r s).bg = s.bg := rfl

@[simp] theorem respond_mida (r : Response) : (respond r s).mida = s.mida := rfl

@[simp] theorem respond_midb (r : Response) : (respond r s).midb = s.midb := rfl

@[simp] theorem respond_fg (r : Response) : (respond r s).fg = s.fg := rfl

@[simp] theorem respond_cr (r : Response) : (respond r s).cr = s.cr := rfl

@[simp] theorem respond_pal0 (r : Response) : (respond r s).pal0 = s.pal0 := rfl

@[simp] theorem respond_pal1 (r : Response) : (respond r s).pal1 = s.pal1 := rfl

@[simp] theorem respond_palDirty (r : Response) : (respond r s).palDirty = s.palDirty := rfl

@[simp] theorem respond_used (r : Response) : (respond r s).used = s.used := rfl

@[simp] theorem respond_usedPrev (r : Response) : (respond r s).usedPrev = s.usedPrev := rfl

@[simp] theorem respond_pub (r : Response) : (respond r s).pub = s.pub := rfl

@[simp] theorem respond_sprram (r : Response) : (respond r s).sprram = s.sprram := rfl

@[simp] theorem respond_snap (r : Response) : (respond r s).snap = s.snap := rfl

@[simp] theorem respond_pstate (r : Response) : (respond r s).pstate = s.pstate := rfl

@[simp] theorem respond_preadback (r : Response) : (respond r s).preadback = s.preadback := rfl

@[simp] theorem respond_platch (r : Response) : (respond r s).platch = s.platch := rfl

@[simp] theorem respond_flipPrev (r : Response) : (respond r s).flipPrev = s.flipPrev := rfl

@[simp] theorem respond_frameCnt (r : Response) : (respond r s).frameCnt = s.frameCnt := rfl

@[simp] theorem respond_comp (r : Response) : (respond r s).comp = s.comp := rfl

@[simp] theorem respond_out (r : Response) : (respond r s).out = s.out := rfl

@[simp] theorem respond_fault (r : Response) : (respond r s).fault = s.fault := rfl

@[simp] theorem respond_refused (r : Response) : (respond r s).refused = s.refused := rfl

@[simp] theorem respond_port (r : Response) : (respond r s).port = s.port := rfl

@[simp] theorem respond_resp (r : Response) : (respond r s).resp = r := rfl

@[simp] theorem respond_draws (r : Response) : (respond r s).draws = s.draws := rfl

@[simp] theorem respond_layer (r : Response) (l : LayerId) : (respond r s).layer l = s.layer l := by
  cases l <;> rfl

/-! ## returnData -/

@[simp] theorem returnData_cfg (v : Word) : (returnData v s).cfg = s.cfg := rfl

@[simp] theorem returnData_bg (v : Word) : (returnData v s).bg = s.bg := rfl

@[simp] theorem returnData_mida (v : Word) : (returnData v s).mida = s.mida := rfl

@[simp] theorem returnData_midb (v : Word) : (returnData v s).midb = s.midb := rfl

@[simp] theorem returnData_fg (v : Word) : (returnData v s).fg = s.fg := rfl

@[simp] theorem returnData_cr (v : Word) : (returnData v s).cr = s.cr := rfl

@[simp] theorem returnData_pal0 (v : Word) : (returnData v s).pal0 = s.pal0 := rfl

@[simp] theorem returnData_pal1 (v : Word) : (returnData v s).pal1 = s.pal1 := rfl

@[simp] theorem returnData_palDirty (v : Word) : (returnData v s).palDirty = s.palDirty := rfl

@[simp] theorem returnData_used (v : Word) : (returnData v s).used = s.used := rfl

@[simp] theorem returnData_usedPrev (v : Word) : (returnData v s).usedPrev = s.usedPrev := rfl

@[simp] theorem returnData_pub (v : Word) : (returnData v s).pub = s.pub := rfl

@[simp] theorem returnData_sprram (v : Word) : (returnData v s).sprram = s.sprram := rfl

@[simp] theorem returnData_snap (v : Word) : (returnData v s).snap = s.snap := rfl

@[simp] theorem returnData_pstate (v : Word) : (returnData v s).pstate = s.pstate := rfl

@[simp] theorem returnData_preadback (v : Word) : (returnData v s).preadback = s.preadback := rfl

@[simp] theorem returnData_platch (v : Word) : (returnData v s).platch = s.platch := rfl

@[simp] theorem returnData_flipPrev (v : Word) : (returnData v s).flipPrev = s.flipPrev := rfl

@[simp] theorem returnData_frameCnt (v : Word) : (returnData v s).frameCnt = s.frameCnt := rfl

@[simp] theorem returnData_comp (v : Word) : (returnData v s).comp = s.comp := rfl

@[simp] theorem returnData_out (v : Word) : (returnData v s).out = s.out := rfl

@[simp] theorem returnData_fault (v : Word) : (returnData v s).fault = s.fault := rfl

@[simp] theorem returnData_refused (v : Word) : (returnData v s).refused = s.refused := rfl

@[simp] theorem returnData_port (v : Word) : (returnData v s).port = s.port := rfl

@[simp] theorem returnData_resp (v : Word) : (returnData v s).resp = .data v := rfl

@[simp] theorem returnData_draws (v : Word) : (returnData v s).draws = s.draws := rfl

@[simp] theorem returnData_layer (v : Word) (l : LayerId) : (returnData v s).layer l = s.layer l := by
  cases l <;> rfl

/-! ## returnDraw -/

@[simp] theorem returnDraw_cfg : (returnDraw s).cfg = s.cfg := rfl

@[simp] theorem returnDraw_bg : (returnDraw s).bg = s.bg := rfl

@[simp] theorem returnDraw_mida : (returnDraw s).mida = s.mida := rfl

@[simp] theorem returnDraw_midb : (returnDraw s).midb = s.midb := rfl

@[simp] theorem returnDraw_fg : (returnDraw s).fg = s.fg := rfl

@[simp] theorem returnDraw_cr : (returnDraw s).cr = s.cr := rfl

@[simp] theorem returnDraw_pal0 : (returnDraw s).pal0 = s.pal0 := rfl

@[simp] theorem returnDraw_pal1 : (returnDraw s).pal1 = s.pal1 := rfl

@[simp] theorem returnDraw_palDirty : (returnDraw s).palDirty = s.palDirty := rfl

@[simp] theorem returnDraw_used : (returnDraw s).used = s.used := rfl

@[simp] theorem returnDraw_usedPrev : (returnDraw s).usedPrev = s.usedPrev := rfl

@[simp] theorem returnDraw_pub : (returnDraw s).pub = s.pub := rfl

@[simp] theorem returnDraw_sprram : (returnDraw s).sprram = s.sprram := rfl

@[simp] theorem returnDraw_snap : (returnDraw s).snap = s.snap := rfl

@[simp] theorem returnDraw_pstate : (returnDraw s).pstate = s.pstate := rfl

@[simp] theorem returnDraw_preadback : (returnDraw s).preadback = s.preadback := rfl

@[simp] theorem returnDraw_platch : (returnDraw s).platch = s.platch := rfl

@[simp] theorem returnDraw_flipPrev : (returnDraw s).flipPrev = s.flipPrev := rfl

@[simp] theorem returnDraw_frameCnt : (returnDraw s).frameCnt = s.frameCnt := rfl

@[simp] theorem returnDraw_comp : (returnDraw s).comp = s.comp := rfl

@[simp] theorem returnDraw_out : (returnDraw s).out = s.out := rfl

@[simp] theorem returnDraw_fault : (returnDraw s).fault = s.fault := rfl

@[simp] theorem returnDraw_refused : (returnDraw s).refused = s.refused := rfl

@[simp] theorem returnDraw_port : (returnDraw s).port = s.port := rfl

@[simp] theorem returnDraw_resp : (returnDraw s).resp = .data (Config.openBus s.draws) := rfl

@[simp] theorem returnDraw_draws : (returnDraw s).draws = s.draws + 1 := rfl

@[simp] theorem returnDraw_layer (l : LayerId) : (returnDraw s).layer l = s.layer l := by
  cases l <;> rfl

/-! ## raiseFault -/

@[simp] theorem raiseFault_cfg (f : Fault) : (raiseFault f s).cfg = s.cfg := rfl

@[simp] theorem raiseFault_bg (f : Fault) : (raiseFault f s).bg = s.bg := rfl

@[simp] theorem raiseFault_mida (f : Fault) : (raiseFault f s).mida = s.mida := rfl

@[simp] theorem raiseFault_midb (f : Fault) : (raiseFault f s).midb = s.midb := rfl

@[simp] theorem raiseFault_fg (f : Fault) : (raiseFault f s).fg = s.fg := rfl

@[simp] theorem raiseFault_cr (f : Fault) : (raiseFault f s).cr = s.cr := rfl

@[simp] theorem raiseFault_pal0 (f : Fault) : (raiseFault f s).pal0 = s.pal0 := rfl

@[simp] theorem raiseFault_pal1 (f : Fault) : (raiseFault f s).pal1 = s.pal1 := rfl

@[simp] theorem raiseFault_palDirty (f : Fault) : (raiseFault f s).palDirty = s.palDirty := rfl

@[simp] theorem raiseFault_used (f : Fault) : (raiseFault f s).used = s.used := rfl

@[simp] theorem raiseFault_usedPrev (f : Fault) : (raiseFault f s).usedPrev = s.usedPrev := rfl

@[simp] theorem raiseFault_pub (f : Fault) : (raiseFault f s).pub = s.pub := rfl

@[simp] theorem raiseFault_sprram (f : Fault) : (raiseFault f s).sprram = s.sprram := rfl

@[simp] theorem raiseFault_snap (f : Fault) : (raiseFault f s).snap = s.snap := rfl

@[simp] theorem raiseFault_pstate (f : Fault) : (raiseFault f s).pstate = s.pstate := rfl

@[simp] theorem raiseFault_preadback (f : Fault) : (raiseFault f s).preadback = s.preadback := rfl

@[simp] theorem raiseFault_platch (f : Fault) : (raiseFault f s).platch = s.platch := rfl

@[simp] theorem raiseFault_flipPrev (f : Fault) : (raiseFault f s).flipPrev = s.flipPrev := rfl

@[simp] theorem raiseFault_frameCnt (f : Fault) : (raiseFault f s).frameCnt = s.frameCnt := rfl

@[simp] theorem raiseFault_comp (f : Fault) : (raiseFault f s).comp = s.comp := rfl

@[simp] theorem raiseFault_out (f : Fault) : (raiseFault f s).out = s.out := rfl

@[simp] theorem raiseFault_fault (f : Fault) : (raiseFault f s).fault = some f := rfl

@[simp] theorem raiseFault_refused (f : Fault) : (raiseFault f s).refused = s.refused := rfl

@[simp] theorem raiseFault_port (f : Fault) : (raiseFault f s).port = s.port := rfl

@[simp] theorem raiseFault_resp (f : Fault) : (raiseFault f s).resp = .silent := rfl

@[simp] theorem raiseFault_draws (f : Fault) : (raiseFault f s).draws = s.draws := rfl

@[simp] theorem raiseFault_layer (f : Fault) (l : LayerId) : (raiseFault f s).layer l = s.layer l := by
  cases l <;> rfl

/-! ## refuseWord -/

@[simp] theorem refuseWord_cfg : (refuseWord s).cfg = s.cfg := rfl

@[simp] theorem refuseWord_bg : (refuseWord s).bg = s.bg := rfl

@[simp] theorem refuseWord_mida : (refuseWord s).mida = s.mida := rfl

@[simp] theorem refuseWord_midb : (refuseWord s).midb = s.midb := rfl

@[simp] theorem refuseWord_fg : (refuseWord s).fg = s.fg := rfl

@[simp] theorem refuseWord_cr : (refuseWord s).cr = s.cr := rfl

@[simp] theorem refuseWord_pal0 : (refuseWord s).pal0 = s.pal0 := rfl

@[simp] theorem refuseWord_pal1 : (refuseWord s).pal1 = s.pal1 := rfl

@[simp] theorem refuseWord_palDirty : (refuseWord s).palDirty = s.palDirty := rfl

@[simp] theorem refuseWord_used : (refuseWord s).used = s.used := rfl

@[simp] theorem refuseWord_usedPrev : (refuseWord s).usedPrev = s.usedPrev := rfl

@[simp] theorem refuseWord_pub : (refuseWord s).pub = s.pub := rfl

@[simp] theorem refuseWord_sprram : (refuseWord s).sprram = s.sprram := rfl

@[simp] theorem refuseWord_snap : (refuseWord s).snap = s.snap := rfl

@[simp] theorem refuseWord_pstate : (refuseWord s).pstate = s.pstate := rfl

@[simp] theorem refuseWord_preadback : (refuseWord s).preadback = s.preadback := rfl

@[simp] theorem refuseWord_platch : (refuseWord s).platch = s.platch := rfl

@[simp] theorem refuseWord_flipPrev : (refuseWord s).flipPrev = s.flipPrev := rfl

@[simp] theorem refuseWord_frameCnt : (refuseWord s).frameCnt = s.frameCnt := rfl

@[simp] theorem refuseWord_comp : (refuseWord s).comp = s.comp := rfl

@[simp] theorem refuseWord_out : (refuseWord s).out = s.out := rfl

@[simp] theorem refuseWord_fault : (refuseWord s).fault = s.fault := rfl

@[simp] theorem refuseWord_refused : (refuseWord s).refused = true := rfl

@[simp] theorem refuseWord_port : (refuseWord s).port = s.port := rfl

@[simp] theorem refuseWord_resp : (refuseWord s).resp = .silent := rfl

@[simp] theorem refuseWord_draws : (refuseWord s).draws = s.draws := rfl

@[simp] theorem refuseWord_layer (l : LayerId) : (refuseWord s).layer l = s.layer l := by
  cases l <;> rfl

end Sys2Proof.Machine
end

