-- ==== Sys2Proof/Laws/Ops.lean ====
section
/-!
SUPPORT. One lemma for each shared operation: everything it can do.
-/

namespace Sys2Proof.Machine

variable (s : State)

/-! ## Performing a transaction -/

theorem transact_running (f : State → State) (h : halted s = false) : transact f s = .next (f s) := by
  simp [transact, h]

theorem transact_halted (f : State → State) (h : halted s = true) : transact f s = .next s := by
  simp [transact, h]

/-- A transaction answers a next state: the performed one, or the same state when the block is halted. -/
theorem transact_next {f : State → State} {t : State} (h : transact f s = .next t) :
    (halted s = false ∧ t = f s) ∨ (halted s = true ∧ t = s) := by
  unfold transact at h
  injection h with h
  cases hh : halted s
  · exact .inl ⟨rfl, by simpa [hh] using h.symm⟩
  · exact .inr ⟨rfl, by simpa [hh] using h.symm⟩

/-- Every transaction answers a next state: the block's faults are states (R430). -/
theorem exec_next (i : Instr) : ∃ t, exec i s = .next t := by
  cases i <;> exact ⟨_, rfl⟩

theorem perform_ok {w : Txn} {i : Instr} (h : decode w = .ok i) : perform w s = exec i s := by
  simp [perform, h]

theorem perform_error {w : Txn} {r : RefuseReason} (h : decode w = .error r) :
    perform w s = .next (refuseWord s) := by
  simp [perform, h]

theorem takeStep_nil (h : s.port = []) : step s = .next s := by
  simp [step, takeStep, h]

theorem takeStep_halted (hb : boardLegal s.cfg = true) (hh : halted s = true) : step s = .next s := by
  unfold step takeStep
  split <;> simp [takeWord, hb, hh]

theorem takeStep_cons {w : Txn} {rest : List Txn} (hp : s.port = w :: rest) (hb : boardLegal s.cfg = true)
    (hh : halted s = false) : step s = perform w { s with port := rest } := by
  simp [step, takeStep, hp, takeWord, hb, hh]

/-- A step that answers a next state: idle, halted, a refused word, or a performed transaction. -/
theorem step_next {t : State} (h : step s = .next t) :
    t = s
      ∨ ∃ w rest, s.port = w :: rest ∧ boardLegal s.cfg = true ∧ halted s = false
        ∧ ((∃ r, decode w = .error r ∧ t = refuseWord { s with port := rest })
          ∨ ∃ i, decode w = .ok i ∧ exec i { s with port := rest } = .next t) := by
  cases hp : s.port with
  | nil =>
    rw [takeStep_nil s hp] at h
    injection h with h
    exact .inl h.symm
  | cons w rest =>
    by_cases hb : boardLegal s.cfg = true
    · cases hh : halted s
      · rw [takeStep_cons s hp hb hh] at h
        refine .inr ⟨w, rest, rfl, hb, rfl, ?_⟩
        cases hd : decode w with
        | error r =>
          rw [perform_error _ hd] at h
          injection h with h
          exact .inl ⟨r, rfl, h.symm⟩
        | ok i =>
          rw [perform_ok _ hd] at h
          exact .inr ⟨i, rfl, h⟩
      · rw [takeStep_halted s hb hh] at h
        injection h with h
        exact .inl h.symm
    · simp [step, takeStep, hp, takeWord, hb] at h

/-! ## Operand checks -/

/-- A number that is not below NL names no layer (R119). -/
theorem layerOf_ge {c : Cfg} {l : Nat} (h : c.nl ≤ l) : layerOf c l = none :=
  List.getElem?_eq_none (Nat.le_trans (by simp [layersOf]) h)

/-- NL = 4 on a legal board (R392). -/
theorem nl_of_legal {c : Cfg} (h : boardLegal c = true) : c.nl = 4 := by
  simp only [boardLegal, countsLegal, Bool.and_eq_true, beq_iff_eq] at h
  omega

/-- The layers of a legal board, in bank order (R9, R383). -/
theorem layersOf_legal {c : Cfg} (h : boardLegal c = true) : layersOf c = [.bg, .mida, .midb, .fg] := by
  simp [layersOf, nl_of_legal h]

theorem withLayerWindow_some {region l : Nat} {x : LayerId} (f : LayerId → State → State) (h : layerOf s.cfg l = some x) :
    withLayerWindow region l f s = f x s := by
  simp [withLayerWindow, h]

theorem withLayerWindow_none {region l : Nat} (f : LayerId → State → State) (h : s.cfg.nl ≤ l) :
    withLayerWindow region l f s = raiseFault (.noWindow region l) s := by
  simp [withLayerWindow, layerOf_ge h]

theorem withLayerArg_some {op : HarnessOp} {l : Nat} {x : LayerId} (f : LayerId → State → State)
    (h : layerOf s.cfg l = some x) : withLayerArg op l f s = f x s := by
  simp [withLayerArg, h]

theorem withLayerArg_none {op : HarnessOp} {l : Nat} (f : LayerId → State → State) (h : s.cfg.nl ≤ l) :
    withLayerArg op l f s = raiseFault (.badArg op l) s := by
  simp [withLayerArg, layerOf_ge h]

theorem withBlockWindow_lt {region b : Nat} (f : State → State) (h : b < s.cfg.ncb) :
    withBlockWindow region b f s = f s := by
  simp [withBlockWindow, h]

theorem withBlockWindow_ge {region b : Nat} (f : State → State) (h : s.cfg.ncb ≤ b) :
    withBlockWindow region b f s = raiseFault (.noWindow region b) s := by
  simp [withBlockWindow, Nat.not_lt.mpr h]

theorem withBank1_split (f : State → State) (h : s.cfg.palFmt = .splitRgB) : withBank1 f s = f s := by
  simp [withBank1, h]

theorem withBank1_packed (f : State → State) (h : s.cfg.palFmt = .packedRgbx) :
    withBank1 f s = raiseFault (.noWindow 0x5 1) s := by
  simp [withBank1, h]

theorem withPaletteArg_lt {op : HarnessOp} {i : Nat} (f : State → State) (h : i < s.cfg.palN) :
    withPaletteArg op i f s = f s := by
  simp [withPaletteArg, h]

theorem withPaletteArg_ge {op : HarnessOp} {i : Nat} (f : State → State) (h : s.cfg.palN ≤ i) :
    withPaletteArg op i f s = raiseFault (.badArg op i) s := by
  simp [withPaletteArg, Nat.not_lt.mpr h]

/-! ## The write merge -/

/-- Each bit of a merged word: the data bit where the mask is 1, the old bit where it is 0 (R83). -/
theorem getLsbD_merge (old data mask : Word) (i : Nat) :
    (merge old data mask).getLsbD i = if mask.getLsbD i = true then data.getLsbD i else old.getLsbD i := by
  unfold merge
  cases hm : mask.getLsbD i
  · simp [hm, BitVec.getLsbD_and, BitVec.getLsbD_or, BitVec.getLsbD_not]
    intro h
    exact BitVec.lt_of_getLsbD h
  · simp [hm, BitVec.getLsbD_and, BitVec.getLsbD_or, BitVec.getLsbD_not]

/-- A mask of 0xFFFF writes the whole word. -/
@[simp] theorem merge_full (old data : Word) : merge old data 0xFFFF = data := by
  apply BitVec.eq_of_getLsbD_eq
  intro i hi
  have h : (0xFFFF : Word).getLsbD i = true := by
    have : ∀ j : Fin 16, (0xFFFF : Word).getLsbD j.val = true := by decide
    exact this ⟨i, hi⟩
  rw [getLsbD_merge, if_pos h]

/-- A mask of 0 writes nothing. -/
@[simp] theorem merge_zero (old data : Word) : merge old data 0 = old := by
  apply BitVec.eq_of_getLsbD_eq
  intro i hi
  simp [getLsbD_merge]

end Sys2Proof.Machine
end

