-- ==== Sys2Proof/Laws/Store.lean ====
section
/-!
SUPPORT. The laws of sparse arrays: what each operation reads as, and that each keeps the one canonical form.
-/

namespace Sys2Proof.Machine

variable {α : Type}

/-! ## Reads -/

@[simp] theorem Store.read_nil (d : α) (k : Nat) : Store.read d [] k = d := rfl

theorem Store.read_cons (d : α) (a : Nat) (v : α) (t : Store α) (k : Nat) :
    Store.read d ((a, v) :: t) k = if a = k then v else Store.read d t k := rfl

theorem Store.read_erase (d : α) (m : Store α) (k j : Nat) :
    Store.read d (Store.erase m k) j = if k = j then d else Store.read d m j := by
  induction m with
  | nil => simp [Store.erase]
  | cons p t ih =>
    obtain ⟨a, v⟩ := p
    by_cases hak : a = k
    · subst hak
      simp only [Store.erase, if_true, ih, Store.read_cons]
      by_cases h : a = j <;> simp [h]
    · by_cases haj : a = j
      · subst haj
        simp [Store.erase, hak, Store.read_cons, Ne.symm hak]
      · simp [Store.erase, hak, Store.read_cons, haj, ih]

theorem Store.read_insert (d : α) (m : Store α) (k : Nat) (v : α) (j : Nat)
    (hk : ∀ p ∈ m, p.1 ≠ k) :
    Store.read d (Store.insert m k v) j = if k = j then v else Store.read d m j := by
  induction m with
  | nil => simp [Store.insert, Store.read_cons]
  | cons p t ih =>
    obtain ⟨a, x⟩ := p
    have hak : a ≠ k := hk (a, x) (by simp)
    by_cases hlt : k < a
    · simp [Store.insert, hlt, Store.read_cons]
    · have hrec := ih (fun p hp => hk p (List.mem_cons_of_mem _ hp))
      by_cases haj : a = j
      · subst haj
        simp [Store.insert, hlt, Store.read_cons, Ne.symm hak]
      · simp [Store.insert, hlt, Store.read_cons, haj, hrec]

theorem Store.erase_ne (m : Store α) (k : Nat) : ∀ p ∈ Store.erase m k, p.1 ≠ k := by
  induction m with
  | nil => simp [Store.erase]
  | cons p t ih =>
    obtain ⟨a, v⟩ := p
    by_cases hak : a = k
    · simpa [Store.erase, hak] using ih
    · simpa [Store.erase, hak] using ih

section Decidable

variable [DecidableEq α]

/-- A read after a write: the value written at its index, every other element as before. -/
theorem Store.read_write (d : α) (m : Store α) (k : Nat) (v : α) (j : Nat) :
    Store.read d (Store.write d m k v) j = if k = j then v else Store.read d m j := by
  unfold Store.write
  by_cases hv : v = d
  · simp [hv, Store.read_erase]
  · rw [if_neg hv, Store.read_insert d _ k v j (Store.erase_ne m k), Store.read_erase]
    by_cases h : k = j <;> simp [h]

@[simp] theorem Store.read_write_same (d : α) (m : Store α) (k : Nat) (v : α) :
    Store.read d (Store.write d m k v) k = v := by simp [Store.read_write]

theorem Store.read_write_other (d : α) (m : Store α) {k j : Nat} (v : α) (h : k ≠ j) :
    Store.read d (Store.write d m k v) j = Store.read d m j := by simp [Store.read_write, h]

theorem Store.read_filterMap_range (d : α) (f : Nat → α) (ks : List Nat) (j : Nat) :
    Store.read d (ks.filterMap fun k => let v := f k; if v = d then none else some (k, v)) j
      = if j ∈ ks then f j else d := by
  induction ks with
  | nil => simp
  | cons k t ih =>
    by_cases hv : f k = d
    · by_cases hj : j = k
      · subst hj
        simp only [List.filterMap_cons, hv, if_true, ih, List.mem_cons, true_or]
        split <;> simp_all
      · simp [hv, ih, hj]
    · by_cases hj : j = k
      · subst hj
        simp [hv, Store.read_cons]
      · simp [hv, Store.read_cons, ih, hj, Ne.symm hj]

/-- A read of a tabulated array. -/
@[simp] theorem Store.read_tabulate (d : α) (n : Nat) (f : Nat → α) (j : Nat) :
    Store.read d (Store.tabulate d n f) j = if j < n then f j else d := by
  simpa [Store.tabulate] using Store.read_filterMap_range d f (List.range n) j

/-- A read after a list of writes: the last value written there, else as before. -/
theorem Store.read_writeAll (d : α) (m : Store α) (ws : List (Nat × α)) (j : Nat) :
    Store.read d (Store.writeAll d m ws) j
      = ws.foldl (fun acc w => if w.1 = j then w.2 else acc) (Store.read d m j) := by
  induction ws generalizing m with
  | nil => rfl
  | cons w t ih =>
    have h := ih (Store.write d m w.1 w.2)
    simpa [Store.writeAll, Store.read_write] using h

/-! ## The canonical form -/

theorem Store.wfFrom_mono (d : α) (n : Nat) {lo hi : Nat} (h : lo ≤ hi) (m : Store α)
    (hm : Store.wfFrom d n hi m = true) : Store.wfFrom d n lo m = true := by
  cases m with
  | nil => rfl
  | cons p t =>
    obtain ⟨a, v⟩ := p
    simp only [Store.wfFrom, Bool.and_eq_true, decide_eq_true_eq] at hm ⊢
    exact ⟨⟨⟨le_trans h hm.1.1.1, hm.1.1.2⟩, hm.1.2⟩, hm.2⟩

theorem Store.wfFrom_erase (d : α) (n lo : Nat) (m : Store α) (k : Nat)
    (hm : Store.wfFrom d n lo m = true) : Store.wfFrom d n lo (Store.erase m k) = true := by
  induction m generalizing lo with
  | nil => rfl
  | cons p t ih =>
    obtain ⟨a, v⟩ := p
    simp only [Store.wfFrom, Bool.and_eq_true, decide_eq_true_eq] at hm
    by_cases hak : a = k
    · simp only [Store.erase, hak, if_true]
      exact ih lo (Store.wfFrom_mono d n (by omega) t hm.2)
    · simp only [Store.erase, hak, if_false, Store.wfFrom, Bool.and_eq_true, decide_eq_true_eq]
      exact ⟨hm.1, ih (a + 1) hm.2⟩

theorem Store.wfFrom_insert (d : α) (n lo : Nat) (m : Store α) (k : Nat) (v : α)
    (hm : Store.wfFrom d n lo m = true) (hlo : lo ≤ k) (hk : k < n) (hv : v ≠ d)
    (hne : ∀ p ∈ m, p.1 ≠ k) : Store.wfFrom d n lo (Store.insert m k v) = true := by
  induction m generalizing lo with
  | nil => simp [Store.insert, Store.wfFrom, hlo, hk, hv]
  | cons p t ih =>
    obtain ⟨a, x⟩ := p
    have hak : a ≠ k := hne (a, x) (by simp)
    simp only [Store.wfFrom, Bool.and_eq_true, decide_eq_true_eq] at hm
    by_cases hlt : k < a
    · simp only [Store.insert, hlt, if_true, Store.wfFrom, Bool.and_eq_true, decide_eq_true_eq]
      exact ⟨⟨⟨hlo, hk⟩, hv⟩, ⟨⟨by omega, hm.1.1.2⟩, hm.1.2⟩, hm.2⟩
    · simp only [Store.insert, hlt, if_false, Store.wfFrom, Bool.and_eq_true, decide_eq_true_eq]
      exact ⟨hm.1, ih (a + 1) hm.2 (by omega) (fun p hp => hne p (List.mem_cons_of_mem _ hp))⟩

/-- A write inside the array keeps the canonical form. -/
theorem Store.wf_write (d : α) (n : Nat) (m : Store α) (k : Nat) (v : α)
    (hm : Store.wf d n m = true) (hk : k < n) : Store.wf d n (Store.write d m k v) = true := by
  unfold Store.write
  by_cases hv : v = d
  · rw [if_pos hv]
    exact Store.wfFrom_erase d n 0 m k hm
  · rw [if_neg hv]
    exact Store.wfFrom_insert d n 0 _ k v (Store.wfFrom_erase d n 0 m k hm) (Nat.zero_le _) hk hv
      (Store.erase_ne m k)

/-- A list of writes inside the array keeps the canonical form. -/
theorem Store.wf_writeAll (d : α) (n : Nat) (m : Store α) (ws : List (Nat × α))
    (hm : Store.wf d n m = true) (hw : ∀ w ∈ ws, w.1 < n) : Store.wf d n (Store.writeAll d m ws) = true := by
  induction ws generalizing m with
  | nil => exact hm
  | cons w t ih =>
    exact ih (Store.write d m w.1 w.2) (Store.wf_write d n m w.1 w.2 hm (hw w (by simp)))
      (fun x hx => hw x (List.mem_cons_of_mem _ hx))

theorem Store.wfFrom_filterMap (d : α) (f : Nat → α) (n lo : Nat) (ks : List Nat)
    (hs : ks.Pairwise (· < ·)) (hlo : ∀ k ∈ ks, lo ≤ k) (hn : ∀ k ∈ ks, k < n) :
    Store.wfFrom d n lo (ks.filterMap fun k => let v := f k; if v = d then none else some (k, v)) = true := by
  induction ks generalizing lo with
  | nil => rfl
  | cons k t ih =>
    rw [List.pairwise_cons] at hs
    have htn : ∀ x ∈ t, x < n := fun x hx => hn x (List.mem_cons_of_mem _ hx)
    by_cases hv : f k = d
    · simp only [List.filterMap_cons, hv, if_true]
      exact ih lo hs.2 (fun x hx => hlo x (List.mem_cons_of_mem _ hx)) htn
    · simp only [List.filterMap_cons, hv, if_false, Store.wfFrom, Bool.and_eq_true, decide_eq_true_eq]
      exact ⟨⟨⟨hlo k (by simp), hn k (by simp)⟩, hv⟩, ih (k + 1) hs.2 (fun x hx => hs.1 x hx) htn⟩

/-- A tabulated array is in canonical form. -/
@[simp] theorem Store.wf_tabulate (d : α) (n : Nat) (f : Nat → α) :
    Store.wf d n (Store.tabulate d n f) = true :=
  Store.wfFrom_filterMap d f n 0 (List.range n) List.pairwise_lt_range (fun _ _ => Nat.zero_le _)
    (fun _ hk => List.mem_range.mp hk)

@[simp] theorem Store.wf_nil (d : α) (n : Nat) : Store.wf d n [] = true := rfl

theorem Store.read_of_wfFrom_lt (d : α) (n lo : Nat) (m : Store α) (hm : Store.wfFrom d n lo m = true)
    {k : Nat} (hk : k < lo) : Store.read d m k = d := by
  induction m generalizing lo with
  | nil => rfl
  | cons p t ih =>
    obtain ⟨a, v⟩ := p
    simp only [Store.wfFrom, Bool.and_eq_true, decide_eq_true_eq] at hm
    have hne : a ≠ k := by omega
    rw [Store.read_cons, if_neg hne]
    exact ih (a + 1) hm.2 (by omega)

theorem Store.read_of_wfFrom_ge (d : α) (n lo : Nat) (m : Store α) (hm : Store.wfFrom d n lo m = true)
    {k : Nat} (hk : n ≤ k) : Store.read d m k = d := by
  induction m generalizing lo with
  | nil => rfl
  | cons p t ih =>
    obtain ⟨a, v⟩ := p
    simp only [Store.wfFrom, Bool.and_eq_true, decide_eq_true_eq] at hm
    have hne : a ≠ k := by omega
    rw [Store.read_cons, if_neg hne]
    exact ih (a + 1) hm.2

theorem Store.ext_of_wfFrom (d : α) (n lo : Nat) (m₁ m₂ : Store α) (h₁ : Store.wfFrom d n lo m₁ = true)
    (h₂ : Store.wfFrom d n lo m₂ = true) (h : ∀ k, Store.read d m₁ k = Store.read d m₂ k) : m₁ = m₂ := by
  induction m₁ generalizing lo m₂ with
  | nil =>
    cases m₂ with
    | nil => rfl
    | cons p t =>
      obtain ⟨a, v⟩ := p
      simp only [Store.wfFrom, Bool.and_eq_true, decide_eq_true_eq] at h₂
      exact absurd (by simpa [Store.read_cons] using (h a).symm) h₂.1.2
  | cons p t ih =>
    obtain ⟨a, v⟩ := p
    simp only [Store.wfFrom, Bool.and_eq_true, decide_eq_true_eq] at h₁
    cases m₂ with
    | nil => exact absurd (by simpa [Store.read_cons] using h a) h₁.1.2
    | cons q u =>
      obtain ⟨b, w⟩ := q
      simp only [Store.wfFrom, Bool.and_eq_true, decide_eq_true_eq] at h₂
      have hab : a = b := by
        rcases Nat.lt_trichotomy a b with hlt | heq | hgt
        · have hb := h a
          rw [Store.read_cons, if_pos rfl, Store.read_cons, if_neg (by omega),
            Store.read_of_wfFrom_lt d n (b + 1) u h₂.2 (by omega)] at hb
          exact absurd hb h₁.1.2
        · exact heq
        · have hb := h b
          rw [Store.read_cons, if_neg (by omega), Store.read_cons, if_pos rfl,
            Store.read_of_wfFrom_lt d n (a + 1) t h₁.2 (by omega)] at hb
          exact absurd hb.symm h₂.1.2
      subst hab
      have hvw : v = w := by simpa [Store.read_cons] using h a
      subst hvw
      refine congrArg _ (ih (a + 1) u h₁.2 h₂.2 fun k => ?_)
      by_cases hk : a = k
      · subst hk
        rw [Store.read_of_wfFrom_lt d n (a + 1) t h₁.2 (by omega),
          Store.read_of_wfFrom_lt d n (a + 1) u h₂.2 (by omega)]
      · simpa [Store.read_cons, hk] using h k

/-- Two arrays in canonical form that read the same are the same data. -/
theorem Store.ext_of_wf (d : α) (n : Nat) (m₁ m₂ : Store α) (h₁ : Store.wf d n m₁ = true)
    (h₂ : Store.wf d n m₂ = true) (h : ∀ k, Store.read d m₁ k = Store.read d m₂ k) : m₁ = m₂ :=
  Store.ext_of_wfFrom d n 0 m₁ m₂ h₁ h₂ h

end Decidable

end Sys2Proof.Machine
end

