-- ==== Sys2Proof/Laws/Bus.lean ====
section
/-!
SUPPORT. One lemma for each window operation of the CPU bus and for the arbiter's transition: everything it can do.
-/

namespace Sys2Proof.Machine

variable (s : State)

/-- A write made on a change only reads as the write. -/
theorem Store.read_write_on_change (d : Word) (m : Store Word) (k : Nat) (v : Word) (j : Nat) :
    Store.read d (if wordChanges (Store.read d m k) v = true then Store.write d m k v else m) j
      = if j = k then v else Store.read d m j := by
  by_cases h : v = Store.read d m k
  · by_cases hj : j = k
    · simp [wordChanges, hj, ← h]
    · simp [wordChanges, hj, ← h]
  · simp only [wordChanges, ne_eq, h, not_false_eq_true, decide_true, if_true, Store.read_write, eq_comm]

/-- TILE: the merged word, the DIRTY flag on a change, nothing else (R150). -/
theorem writeTile_spec (l : LayerId) (o : Nat) (data mask : Word) :
    ∃ x, writeTile l o data mask s = s.setLayer l x
      ∧ (∀ p, tileAt x p = if p = o then merge (tileAt (s.layer l) o) data mask else tileAt (s.layer l) p)
      ∧ (∀ p, dirtyAt x p
          = if p = o ∧ merge (tileAt (s.layer l) o) data mask ≠ tileAt (s.layer l) o then true
            else dirtyAt (s.layer l) p)
      ∧ { x with tile := (s.layer l).tile, dirty := (s.layer l).dirty } = s.layer l := by
  refine ⟨_, rfl, fun p => ?_, fun p => ?_, rfl⟩
  · exact Store.read_write_on_change unlistedWord (s.layer l).tile o _ p
  · simp only [dirtyAt, dirtyOnChange, wordChanges, decide_eq_true_eq]
    by_cases h : merge (tileAt (s.layer l) o) data mask = tileAt (s.layer l) o
    · simp [h]
    · simp only [h, ne_eq, not_false_eq_true, if_true, and_true, Store.read_write, eq_comm]

/-- ROWTAB: the merged entry, nothing else (R152). -/
theorem writeRowtab_spec (l : LayerId) (e : Nat) (data mask : Word) :
    ∃ x, writeRowtab l e data mask s = s.setLayer l x
      ∧ (∀ p, rowtabAt x p = if p = e then merge (rowtabAt (s.layer l) e) data mask else rowtabAt (s.layer l) p)
      ∧ { x with rowtab := (s.layer l).rowtab } = s.layer l := by
  refine ⟨_, rfl, fun p => ?_, rfl⟩
  simp only [rowtabAt, Store.read_write, eq_comm]

/-- COLTAB: the merged entry, nothing else (R154). -/
theorem writeColtab_spec (l : LayerId) (e : Nat) (data mask : Word) :
    ∃ x, writeColtab l e data mask s = s.setLayer l x
      ∧ (∀ p, coltabAt x p = if p = e then merge (coltabAt (s.layer l) e) data mask else coltabAt (s.layer l) p)
      ∧ { x with coltab := (s.layer l).coltab } = s.layer l := by
  refine ⟨_, rfl, fun p => ?_, rfl⟩
  simp only [coltabAt, Store.read_write, eq_comm]

/-- CR: the merged word, nothing else (R156). -/
theorem writeCr_spec (b w : Nat) (data mask : Word) :
    (∀ k, Store.read unlistedWord (writeCr b w data mask s).cr k
        = if k = crKey s.cfg b w then merge (crAt s b w) data mask else Store.read unlistedWord s.cr k)
      ∧ { writeCr b w data mask s with cr := s.cr } = s := by
  refine ⟨fun k => ?_, rfl⟩
  simp only [writeCr, Store.read_write, eq_comm]

/-- PAL0: the merged word, PAL_DIRTY on a change, nothing else (R158). -/
theorem writePal0_spec (i : Nat) (data mask : Word) :
    (∀ j, pal0At (writePal0 i data mask s) j = if j = i then merge (pal0At s i) data mask else pal0At s j)
      ∧ (writePal0 i data mask s).palDirty
          = (decide (merge (pal0At s i) data mask ≠ pal0At s i) || s.palDirty)
      ∧ { writePal0 i data mask s with pal0 := s.pal0, palDirty := s.palDirty } = s := by
  exact ⟨fun j => Store.read_write_on_change unlistedWord s.pal0 i _ j, rfl, rfl⟩

/-- PAL1: the merged word, PAL_DIRTY on a change, nothing else (R160). -/
theorem writePal1_spec (i : Nat) (data mask : Word) :
    (∀ j, pal1At (writePal1 i data mask s) j = if j = i then merge (pal1At s i) data mask else pal1At s j)
      ∧ (writePal1 i data mask s).palDirty
          = (decide (merge (pal1At s i) data mask ≠ pal1At s i) || s.palDirty)
      ∧ { writePal1 i data mask s with pal1 := s.pal1, palDirty := s.palDirty } = s := by
  exact ⟨fun j => Store.read_write_on_change unlistedWord s.pal1 i _ j, rfl, rfl⟩

/-- SPRRAM: the merged word, nothing else (R162). -/
theorem writeSprram_spec (w : Nat) (data mask : Word) :
    (∀ j, sprramAt (writeSprram w data mask s) j = if j = w then merge (sprramAt s w) data mask else sprramAt s j)
      ∧ { writeSprram w data mask s with sprram := s.sprram } = s := by
  refine ⟨fun j => ?_, rfl⟩
  simp only [sprramAt, writeSprram, Store.read_write, eq_comm]

/-- SNAP: every word copied, nothing else (R164). -/
theorem copySnapshot_spec :
    (∀ w, snapAt (copySnapshot s) w = if w < s.cfg.sprRamWords then sprramAt s w else unlistedWord)
      ∧ { copySnapshot s with snap := s.snap } = s :=
  ⟨fun w => by simp only [snapAt, copySnapshot, Store.read_tabulate], rfl⟩

/-- The arbiter: a key of the table sets the readback and the state, any other only PLATCH (R351, R356). -/
theorem presentKey_spec (key : Word) :
    (∀ e, prioLookup s.cfg.prioTable key = some e →
        presentKey key s = { s with platch := key, preadback := e.rb, pstate := e.st })
      ∧ (prioLookup s.cfg.prioTable key = none → presentKey key s = { s with platch := key }) := by
  constructor
  · intro e h
    simp [presentKey, h]
  · intro h
    simp [presentKey, h]

/-- On a legal board the table holds the key 0x00F1 with LEVEL1 (R355). -/
theorem prioLookup_of_legal {c : Cfg} (h : boardLegal c = true) :
    ∃ e, prioLookup c.prioTable 0x00F1 = some e ∧ e.st = .level1 := by
  simp only [boardLegal, Bool.and_eq_true] at h
  have h := h.2
  unfold prioTableLegal at h
  split at h
  · next e he => exact ⟨e, he, by simpa using h⟩
  · cases h

end Sys2Proof.Machine
end

