-- ==== Sys2Proof/Laws/Encoding.lean ====
section
/-!
SUPPORT. Packing the fields of a word and taking them out again (R110).
-/

namespace Sys2Proof

/-- The fields fit their widths (R110). -/
def FieldsFit (f : TxnFields) : Prop := f.region < 16 ∧ f.sub < 8 ∧ f.rsvd < 256 ∧ f.off < 65536

/-- A packed word as a number. -/
theorem pack_toNat (f : TxnFields) (h : FieldsFit f) :
    (pack f).toNat
      = (((((f.region * 2 + f.we.toNat) * 8 + f.sub) * 256 + f.rsvd) * 65536 + f.off) * 65536 + f.mask.toNat) * 65536
        + f.data.toNat := by
  obtain ⟨hr, hs, hv, ho⟩ := h
  have hm := f.mask.isLt
  have hd := f.data.isLt
  have hw : (BitVec.ofBool f.we).toNat = f.we.toNat := by cases f.we <;> rfl
  have hwl : f.we.toNat < 2 := by cases f.we <;> decide
  simp only [pack, BitVec.toNat_append, BitVec.toNat_ofNat, hw]
  rw [Nat.mod_eq_of_lt hr, Nat.mod_eq_of_lt hs, Nat.mod_eq_of_lt hv, Nat.mod_eq_of_lt ho]
  rw [← Nat.shiftLeft_add_eq_or_of_lt hd, ← Nat.shiftLeft_add_eq_or_of_lt hm, ← Nat.shiftLeft_add_eq_or_of_lt ho,
    ← Nat.shiftLeft_add_eq_or_of_lt hv, ← Nat.shiftLeft_add_eq_or_of_lt hs, ← Nat.shiftLeft_add_eq_or_of_lt hwl]
  simp only [Nat.shiftLeft_eq]

/-- Taking the fields out of a packed word gives them back. -/
theorem fieldsOf_pack (f : TxnFields) (h : FieldsFit f) : fieldsOf (pack f) = f := by
  have hn := pack_toNat f h
  obtain ⟨hr, hs, hv, ho⟩ := h
  have hm := f.mask.isLt
  have hd := f.data.isLt
  have hwl : f.we.toNat < 2 := by cases f.we <;> decide
  have hwe : (pack f).getLsbD 59 = f.we := by
    rw [BitVec.getLsbD, Nat.testBit_eq_decide_div_mod_eq, hn]
    cases f.we <;> simp only [Bool.toNat_false, Bool.toNat_true, decide_eq_true_eq, decide_eq_false_iff_not] <;>
      omega
  cases f with
  | mk region we sub rsvd off mask data =>
    simp only [fieldsOf, TxnFields.mk.injEq, hwe, true_and, BitVec.extractLsb'_toNat, Nat.shiftRight_eq_div_pow, hn]
    simp only at hr hs hv ho hm hd hwl
    refine ⟨by omega, by omega, by omega, by omega, ?_, ?_⟩
    · apply BitVec.eq_of_toNat_eq
      simp only [BitVec.extractLsb'_toNat, Nat.shiftRight_eq_div_pow, hn]
      omega
    · apply BitVec.eq_of_toNat_eq
      simp only [BitVec.extractLsb'_toNat, Nat.shiftRight_eq_div_pow, hn]
      omega

end Sys2Proof
end

