-- ==== Sys2Proof/Laws/Exec.lean ====
section
/-!
SUPPORT. Each transaction as `transact`, the one shared way of performing, of its own operation; and the halted
block.
-/

namespace Sys2Proof.Machine

variable (s : State)

theorem exec_tileWr (l off : Nat) (data mask : Word) :
    exec (.tileWr l off data mask) s
      = transact (withLayerWindow 0x1 l fun x t =>
      respond .silent (writeTile x (fold off (cellsOf (t.cfg.layer x))) data mask t)) s := rfl

theorem exec_tileRd (l off : Nat) :
    exec (.tileRd l off) s
      = transact (withLayerWindow 0x1 l fun x t =>
      returnData (tileAt (t.layer x) (fold off (cellsOf (t.cfg.layer x)))) t) s := rfl

theorem exec_rscrWr (l off : Nat) (data mask : Word) :
    exec (.rscrWr l off data mask) s
      = transact (withLayerWindow 0x2 l fun x t =>
      respond .silent (writeRowtab x (fold off t.cfg.rowTabN) data mask t)) s := rfl

theorem exec_rscrRd (l off : Nat) :
    exec (.rscrRd l off) s
      = transact (withLayerWindow 0x2 l fun x t =>
      returnData (rowtabAt (t.layer x) (fold off t.cfg.rowTabN)) t) s := rfl

theorem exec_cscrWr (l off : Nat) (data mask : Word) :
    exec (.cscrWr l off data mask) s
      = transact (withLayerWindow 0x3 l fun x t =>
      respond .silent (writeColtab x (fold off t.cfg.colTabN) data mask t)) s := rfl

theorem exec_cscrRd (l off : Nat) :
    exec (.cscrRd l off) s
      = transact (withLayerWindow 0x3 l fun x t =>
      returnData (coltabAt (t.layer x) (fold off t.cfg.colTabN)) t) s := rfl

theorem exec_ctrlWr (b off : Nat) (data mask : Word) :
    exec (.ctrlWr b off data mask) s
      = transact (withBlockWindow 0x4 b fun t =>
      respond .silent (writeCr b (fold off t.cfg.cbWords) data mask t)) s := rfl

theorem exec_ctrlRd (b off : Nat) :
    exec (.ctrlRd b off) s
      = transact (withBlockWindow 0x4 b returnDraw) s := rfl

theorem exec_palWr0 (off : Nat) (data mask : Word) :
    exec (.palWr0 off data mask) s
      = transact (fun t => respond .silent (writePal0 (fold off t.cfg.palN) data mask t)) s := rfl

theorem exec_palRd0 (off : Nat) :
    exec (.palRd0 off) s
      = transact (fun t => returnData (pal0At t (fold off t.cfg.palN)) t) s := rfl

theorem exec_palWr1 (off : Nat) (data mask : Word) :
    exec (.palWr1 off data mask) s
      = transact (withBank1 fun t => respond .silent (writePal1 (fold off t.cfg.palN) data mask t)) s := rfl

theorem exec_palRd1 (off : Nat) :
    exec (.palRd1 off) s
      = transact (withBank1 fun t => returnData (pal1At t (fold off t.cfg.palN)) t) s := rfl

theorem exec_sprWr (off : Nat) (data mask : Word) :
    exec (.sprWr off data mask) s
      = transact (fun t => respond .silent (writeSprram (fold off t.cfg.sprRamWords) data mask t)) s := rfl

theorem exec_sprRd (off : Nat) :
    exec (.sprRd off) s
      = transact (fun t => returnData (sprramAt t (fold off t.cfg.sprRamWords)) t) s := rfl

theorem exec_dmaWr :
    exec .dmaWr s
      = transact (fun t => respond .silent (copySnapshot t)) s := rfl

theorem exec_dmaRd :
    exec .dmaRd s
      = transact (returnDraw) s := rfl

theorem exec_protWr (data mask : Word) :
    exec (.protWr data mask) s
      = transact (fun t => respond .silent (presentKey (merge t.platch data mask) t)) s := rfl

theorem exec_protRd :
    exec .protRd s
      = transact (fun t => returnData t.preadback t) s := rfl

theorem exec_frameRender :
    exec .frameRender s
      = transact (fun t => respond .frame (renderFrame t)) s := rfl

theorem exec_hUpdate (l : Nat) :
    exec (.hUpdate l) s
      = transact (withLayerArg .hUpdate l fun x t => respond .silent (updateLayer x t)) s := rfl

theorem exec_hRender (l : Nat) :
    exec (.hRender l) s
      = transact (withLayerArg .hRender l fun x t => respond .silent (renderLayer x t)) s := rfl

theorem exec_hMarkalldirty (l : Nat) :
    exec (.hMarkalldirty l) s
      = transact (withLayerArg .hMarkalldirty l fun x t => respond .silent (markAllDirty x t)) s := rfl

theorem exec_hLatchscroll (l : Nat) :
    exec (.hLatchscroll l) s
      = transact (withLayerArg .hLatchscroll l fun x t => respond .silent (latchScroll x t)) s := rfl

theorem exec_hInvalidate (l : Nat) :
    exec (.hInvalidate l) s
      = transact (withLayerArg .hInvalidate l fun x t => respond .silent (invalidate x t)) s := rfl

theorem exec_hDraw (l : Nat) (pass : LayerPass) :
    exec (.hDraw l pass) s
      = transact (withLayerArg .hDraw l fun x t => respond .silent (drawLayer x pass t)) s := rfl

theorem exec_hSetflip (l : Nat) (f : Bool) :
    exec (.hSetflip l f) s
      = transact (withLayerArg .hSetflip l fun x t => respond .silent (setFlip x f t)) s := rfl

theorem exec_hSprdraw (pass : SprPass) :
    exec (.hSprdraw pass) s
      = transact (fun t => respond .silent (drawSprites pass t)) s := rfl

theorem exec_hMarkused (i : Nat) :
    exec (.hMarkused i) s
      = transact (withPaletteArg .hMarkused i fun t => respond .silent (markUsed i t)) s := rfl

theorem exec_hRecompute :
    exec .hRecompute s
      = transact (fun t => returnData (reportWord (recomputeReports t)) (recompute t)) s := rfl

theorem exec_hClearused :
    exec .hClearused s
      = transact (fun t => respond .silent (clearUsed t)) s := rfl

theorem exec_hFill :
    exec .hFill s
      = transact (fun t => respond .silent (fillBackdrop t)) s := rfl

theorem exec_hOutput :
    exec .hOutput s
      = transact (fun t => respond .silent (stepOutput t)) s := rfl

/-- A halted block does nothing with a transaction (R431). -/
theorem exec_halted (i : Instr) (h : halted s = true) : exec i s = .next s := by
  cases i <;> simp only [exec_tileWr, exec_tileRd, exec_rscrWr, exec_rscrRd, exec_cscrWr, exec_cscrRd,
    exec_ctrlWr, exec_ctrlRd, exec_palWr0, exec_palRd0, exec_palWr1, exec_palRd1, exec_sprWr, exec_sprRd,
    exec_dmaWr, exec_dmaRd, exec_protWr, exec_protRd, exec_frameRender, exec_hUpdate, exec_hRender,
    exec_hMarkalldirty, exec_hLatchscroll, exec_hInvalidate, exec_hDraw, exec_hSetflip, exec_hSprdraw,
    exec_hMarkused, exec_hRecompute, exec_hClearused, exec_hFill, exec_hOutput, transact_halted s _ h]

end Sys2Proof.Machine
end

