-- ==== Sys2Proof/Laws/Tilemap.lean ====
section
/-!
SUPPORT. One lemma for each operation of the tilemap renderer: everything it can do; and the facts of legal boards
they need.
-/

namespace Sys2Proof.Machine

variable (s : State)

/-! ## Legal boards -/

/-- A power of two is positive. -/
theorem isPowerOfTwo_pos {n : Nat} (h : isPowerOfTwo n = true) : 0 < n := by
  rcases Nat.eq_zero_or_pos n with rfl | hp
  · simp [isPowerOfTwo] at h
  · exact hp

/-- A layer record of a legal board is legal. -/
theorem layerLegal_of_legal {c : Cfg} (h : boardLegal c = true) (l : LayerId) : layerLegal c (c.layer l) = true := by
  simp only [boardLegal, Bool.and_eq_true] at h
  obtain ⟨⟨⟨⟨⟨⟨⟨⟨⟨⟨⟨⟨-, h0⟩, h1⟩, h2⟩, h3⟩, -⟩, -⟩, -⟩, -⟩, -⟩, -⟩, -⟩, -⟩ := h
  cases l <;> assumption

/-- The palette of a legal board is not empty. -/
theorem palN_pos_of_legal {c : Cfg} (h : boardLegal c = true) : 0 < c.palN := by
  simp only [boardLegal, Bool.and_eq_true, decide_eq_true_eq] at h
  exact Nat.lt_of_le_of_lt (Nat.zero_le _) h.1.1.1.2

/-- The cell sides of a legal layer are 8 or 16. -/
theorem cellSide_of_legal {b : Cfg} {c : LayerCfg} (h : layerLegal b c = true) :
    (c.cw = 8 ∨ c.cw = 16) ∧ (c.ch = 8 ∨ c.ch = 16) := by
  simp only [layerLegal, cellSideOk, Bool.and_eq_true, Bool.or_eq_true, beq_iff_eq] at h
  exact ⟨h.1.1.1.1.1.1.2, h.1.1.1.1.1.2⟩

/-- The grid sides of a legal layer are positive. -/
theorem grid_pos_of_legal {b : Cfg} {c : LayerCfg} (h : layerLegal b c = true) : 0 < c.cols ∧ 0 < c.rows := by
  simp only [layerLegal, Bool.and_eq_true] at h
  exact ⟨isPowerOfTwo_pos h.1.1.1.1.1.1.1.1.1, isPowerOfTwo_pos h.1.1.1.1.1.1.1.1.2⟩

/-- A FOUR_PAGE layer of a legal board is 64 by 64 cells (R203). -/
theorem fourPage_of_legal {b : Cfg} {c : LayerCfg} (h : layerLegal b c = true) (hs : c.scan = .fourPage) :
    c.cols = 64 ∧ c.rows = 64 := by
  simp only [layerLegal, scanOk, hs, Bool.and_eq_true, beq_iff_eq] at h
  exact h.1.1.1.1.2

/-- The scan of a cell of a legal layer is a storage offset of it (R200-R203). -/
theorem scan_lt_of_legal {b : Cfg} {lc : LayerCfg} (h : layerLegal b lc = true) {col row : Nat} (hc : col < lc.cols)
    (hr : row < lc.rows) : scan lc col row < cellsOf lc := by
  unfold scan cellsOf
  split
  · nlinarith
  · nlinarith
  · next hs =>
    obtain ⟨e1, e2⟩ := fourPage_of_legal h hs
    rw [e1] at hc ⊢
    rw [e2] at hr ⊢
    unfold scanFourPage
    omega

/-- The cell of a layer position of a legal layer is a storage offset of it (R214). -/
theorem cellAt_lt_of_legal {b : Cfg} {lc : LayerCfg} (h : layerLegal b lc = true) {lx ly : Nat} (hx : lx < widthOf lc)
    (hy : ly < heightOf lc) : cellAt lc lx ly < cellsOf lc := by
  refine scan_lt_of_legal h ?_ ?_
  · exact Nat.div_lt_of_lt_mul (by rwa [Nat.mul_comm])
  · exact Nat.div_lt_of_lt_mul (by rwa [Nat.mul_comm])

/-- The scroll mapping of a legal layer stays inside the layer (R216-R218). -/
theorem scrollWith_lt_of_legal {b : Cfg} {lc : LayerCfg} (h : layerLegal b lc = true) (c : Cfg) (x : LayerState)
    (sc : Scroll) (ux uy : Nat) :
    (scrollWith c lc x sc ux uy).1 < widthOf lc ∧ (scrollWith c lc x sc ux uy).2 < heightOf lc := by
  have hs := cellSide_of_legal h
  have hg := grid_pos_of_legal h
  have hw : 0 < widthOf lc := Nat.mul_pos hg.1 (by omega)
  have hh : 0 < heightOf lc := Nat.mul_pos hg.2 (by omega)
  unfold scrollWith
  split <;> exact ⟨Nat.mod_lt _ hw, Nat.mod_lt _ hh⟩

/-! ## Micro-operations -/

/-- UPDATE: every dirty cell decoded, marked stale and cleaned; nothing else of the layer, no other layer (R228). -/
theorem updateLayer_spec (l : LayerId) :
    ∃ x, updateLayer l s = s.setLayer l x
      ∧ (∀ o, infoAt x o
          = if o < cellsOf (s.cfg.layer l) then
              (if dirtyAt (s.layer l) o = true then decodeInfo (s.cfg.layer l).dec (tileAt (s.layer l) o)
               else infoAt (s.layer l) o)
            else unlistedInfo)
      ∧ (∀ o, staleAt x o
          = if o < cellsOf (s.cfg.layer l) then dirtyAt (s.layer l) o || staleAt (s.layer l) o else true)
      ∧ (∀ o, dirtyAt x o = if o < cellsOf (s.cfg.layer l) then false else true)
      ∧ { x with info := (s.layer l).info, stale := (s.layer l).stale, dirty := (s.layer l).dirty } = s.layer l := by
  refine ⟨_, rfl, fun o => ?_, fun o => ?_, fun o => ?_, rfl⟩
  · simp only [infoAt, Store.read_tabulate]
  · simp only [staleAt, Store.read_tabulate, unlistedMark]
  · simp only [dirtyAt, noneMarked, Store.read_tabulate, unlistedMark]

/-- RENDER: every pixel of the layer is the rendered one, every STALE flag cleared; nothing else (R229). -/
theorem renderLayer_spec (l : LayerId) :
    ∃ x, renderLayer l s = s.setLayer l x
      ∧ (∀ lx ly, lx < widthOf (s.cfg.layer l) → ly < heightOf (s.cfg.layer l) →
          pcacheAt (s.cfg.layer l) x lx ly = renderedPixel s.cfg (s.cfg.layer l) (s.layer l) lx ly)
      ∧ (∀ o, staleAt x o = if o < cellsOf (s.cfg.layer l) then false else true)
      ∧ { x with pcache := (s.layer l).pcache, stale := (s.layer l).stale } = s.layer l := by
  refine ⟨_, rfl, fun lx ly hx hy => ?_, fun o => ?_, rfl⟩
  · have hk : ly * widthOf (s.cfg.layer l) + lx < widthOf (s.cfg.layer l) * heightOf (s.cfg.layer l) := by
      have := Nat.mul_le_mul_right (widthOf (s.cfg.layer l)) (Nat.succ_le_of_lt hy)
      rw [Nat.succ_mul, Nat.mul_comm (heightOf _)] at this
      omega
    have hm : (ly * widthOf (s.cfg.layer l) + lx) % widthOf (s.cfg.layer l) = lx := by
      rw [Nat.add_comm, Nat.add_mul_mod_self_right, Nat.mod_eq_of_lt hx]
    have hd : (ly * widthOf (s.cfg.layer l) + lx) / widthOf (s.cfg.layer l) = ly := by
      rw [Nat.add_comm, Nat.add_mul_div_right _ _ (Nat.lt_of_le_of_lt (Nat.zero_le _) hx), Nat.div_eq_of_lt hx,
        Nat.zero_add]
    conv => lhs; unfold pcacheAt
    simp only [Store.read_tabulate, hk, if_true, hm, hd]
  · simp only [staleAt, noneMarked, Store.read_tabulate, unlistedMark]

/-- A screen position is recovered from its index. -/
theorem screenKey_mod_div {c : Cfg} {x y : Nat} (hx : x < c.screenW) :
    screenKey c x y % c.screenW = x ∧ screenKey c x y / c.screenW = y := by
  unfold screenKey
  constructor
  · rw [Nat.add_comm, Nat.add_mul_mod_self_right, Nat.mod_eq_of_lt hx]
  · rw [Nat.add_comm, Nat.add_mul_div_right _ _ (Nat.lt_of_le_of_lt (Nat.zero_le _) hx), Nat.div_eq_of_lt hx,
      Nat.zero_add]

/-- The index of a screen position lies on the screen. -/
theorem screenKey_lt {c : Cfg} {x y : Nat} (hx : x < c.screenW) (hy : y < c.screenH) :
    screenKey c x y < screenPixels c := by
  unfold screenKey screenPixels
  have := Nat.mul_le_mul_right c.screenW (Nat.succ_le_of_lt hy)
  rw [Nat.succ_mul, Nat.mul_comm c.screenH] at this
  omega

/-- DRAW: the pixels the pass draws take the shown pixel's index; the others and everything else stay (R223). -/
theorem drawLayer_spec (l : LayerId) (pass : LayerPass) :
    (∀ x y, x < s.cfg.screenW → y < s.cfg.screenH →
        compAt (drawLayer l pass s) x y
          = if passDraws (s.cfg.layer l) pass (shownPixel s l x y) = true then (shownPixel s l x y).idx
            else compAt s x y)
      ∧ { drawLayer l pass s with comp := s.comp } = s := by
  refine ⟨fun x y hx hy => ?_, rfl⟩
  conv => lhs; unfold compAt
  simp only [drawLayer, Store.read_tabulate, screenKey_lt hx hy, if_true, screenKey_mod_div hx]

/-- MARK_ALL_DIRTY: every DIRTY flag of the layer, nothing else (R230). -/
theorem markAllDirty_spec (l : LayerId) :
    ∃ x, markAllDirty l s = s.setLayer l x ∧ (∀ o, dirtyAt x o = true)
      ∧ { x with dirty := (s.layer l).dirty } = s.layer l := by
  refine ⟨_, rfl, fun o => ?_, rfl⟩
  simp only [dirtyAt, allMarked, Store.read_tabulate, unlistedMark, ite_self]

/-- SETFLIP: FLIP and every DIRTY flag of the layer, nothing else (R231). -/
theorem setFlip_spec (l : LayerId) (f : Bool) :
    ∃ x, setFlip l f s = s.setLayer l x ∧ x.flip = f ∧ (∀ o, dirtyAt x o = true)
      ∧ { x with flip := (s.layer l).flip, dirty := (s.layer l).dirty } = s.layer l := by
  refine ⟨{ s.layer l with flip := f, dirty := allMarked (cellsOf (s.cfg.layer l)) }, ?_, rfl, fun o => ?_, rfl⟩
  · simp only [setFlip, markAllDirty, State.setLayer_cfg, State.layer_setLayer_same, State.setLayer_setLayer]
  · simp only [dirtyAt, allMarked, Store.read_tabulate, unlistedMark, ite_self]

/-- LATCHSCROLL: SCR of the layer, nothing else (R215, R395). -/
theorem latchScroll_spec (l : LayerId) :
    latchScroll l s = s.setLayer l { s.layer l with scr := resolveScroll l s } := rfl

end Sys2Proof.Machine
end

