-- ==== Sys2Proof/Laws/Sprite.lean ====
section
/-!
SUPPORT. What the sprite compositor's operations can do.
-/

namespace Sys2Proof.Machine

variable (s : State)

/-- An entry the walk keeps is an entry of the table and is not unused (R305, R316). -/
theorem mem_liveEntries {e : Nat} (h : e ∈ liveEntries s) : e < s.cfg.sprN ∧ entryUnused s e = false := by
  have hw : ∀ e, e ∈ walkOrder s.cfg → e < s.cfg.sprN := by
    intro e he
    unfold walkOrder at he
    split at he <;> simpa using he
  unfold liveEntries at h
  split at h
  · simp only [List.mem_filter, Bool.not_eq_true'] at h
    exact ⟨hw e h.1, h.2⟩
  · exact ⟨hw e (List.takeWhile_subset _ h), by simpa using List.mem_takeWhile_imp h⟩

/-- An entry a pass draws is live (R313, R314, R321). -/
theorem drawnEntries_subset (pass : SprPass) {e : Nat} (h : e ∈ drawnEntries s pass) : e ∈ liveEntries s :=
  (List.mem_filter.mp h).1

/-- The entries a pass draws stand in walk order (R316). -/
theorem drawnEntries_sublist (pass : SprPass) : (drawnEntries s pass).Sublist (walkOrder s.cfg) := by
  refine List.Sublist.trans List.filter_sublist ?_
  unfold liveEntries
  split
  · exact List.filter_sublist
  · exact List.takeWhile_sublist _

/-- SPRDRAW: the composite buffer takes the last of its writes at each index; nothing else changes (R319). -/
theorem drawSprites_spec (pass : SprPass) :
    (∀ k, Store.read unlistedIndex (drawSprites pass s).comp k
        = (spriteWrites s s.flipPrev pass).foldl (fun acc w => if w.1 = k then w.2 else acc)
            (Store.read unlistedIndex s.comp k))
      ∧ { drawSprites pass s with comp := s.comp } = s :=
  ⟨fun k => by simp only [drawSprites, Store.read_writeAll], rfl⟩

end Sys2Proof.Machine
end

