-- ==== Sys2Proof/Laws/Palette.lean ====
section
/-!
SUPPORT. One lemma for each operation of the palette cache controller: everything it can do.
-/

namespace Sys2Proof.Machine

variable (s : State)

/-- The flags after MARK_USED of a list (R270, R271). -/
theorem read_markAllUsed (m : Store Bool) (is : List Nat) (j : Nat) :
    Store.read unlistedUse (markAllUsed m is) j = (decide (j ∈ is) || Store.read unlistedUse m j) := by
  unfold markAllUsed
  induction is generalizing m with
  | nil => simp [Store.writeAll]
  | cons i t ih =>
    have h := ih (Store.write unlistedUse m i true)
    simp only [Store.writeAll, List.map_cons, List.foldl_cons, Store.read_write] at h ⊢
    rw [h]
    by_cases hj : j = i
    · simp [hj]
    · simp [hj, Ne.symm hj]

/-- MARK_USED: one flag, nothing else (R270). -/
theorem markUsed_spec (i : Nat) :
    (∀ j, usedAt (markUsed i s) j = if j = i then true else usedAt s j)
      ∧ { markUsed i s with used := s.used } = s := by
  refine ⟨fun j => ?_, rfl⟩
  simp only [usedAt, markUsed, Store.read_write, eq_comm]

/-- CLEARUSED: every flag, nothing else (R384, R396). -/
theorem clearUsed_spec : (∀ j, usedAt (clearUsed s) j = false) ∧ { clearUsed s with used := s.used } = s := by
  refine ⟨fun j => ?_, rfl⟩
  simp only [usedAt, clearUsed, noneUsed, Store.read_tabulate, unlistedUse, ite_self]

/-- ACCUMULATE: the accumulated indices are marked, nothing else (R271). -/
theorem accumulate_spec :
    (∀ j, usedAt (accumulate s) j = (decide (j ∈ accumulated s) || usedAt s j))
      ∧ { accumulate s with used := s.used } = s :=
  ⟨fun j => read_markAllUsed s.used (accumulated s) j, rfl⟩

theorem recomputeRuns_iff :
    recomputeRuns s = true ↔ s.palDirty = true ∨ ∃ i, i < s.cfg.palN ∧ usedAt s i ≠ usedPrevAt s i := by
  simp [recomputeRuns, usedDiffers]

theorem somePubDiffers_iff :
    somePubDiffers s = true ↔ ∃ i, i < s.cfg.palN ∧ usedAt s i = true ∧ pubAt s i ≠ rgbOf s i := by
  simp [somePubDiffers]

/-- RECOMPUTE: nothing, or the used entries published, USED_PREV and PAL_DIRTY (R272). -/
theorem recompute_spec :
    (recomputeRuns s = false → recompute s = s)
      ∧ (recomputeRuns s = true →
          (∀ i, pubAt (recompute s) i
              = if i < s.cfg.palN then (if usedAt s i = true then rgbOf s i else pubAt s i) else unlistedRgb)
            ∧ (recompute s).usedPrev = s.used ∧ (recompute s).palDirty = false
            ∧ { recompute s with pub := s.pub, usedPrev := s.usedPrev, palDirty := s.palDirty } = s) := by
  constructor
  · intro h
    simp [recompute, h]
  · intro h
    rw [show recompute s = { s with
        pub := Store.tabulate unlistedRgb s.cfg.palN fun i => if usedAt s i = true then rgbOf s i else pubAt s i
        usedPrev := s.used
        palDirty := false } by rw [recompute, if_pos h]]
    refine ⟨fun i => ?_, rfl, rfl, rfl⟩
    simp only [pubAt, Store.read_tabulate]

/-- INVALIDATE: every STALE flag of the layer, nothing else (R275). -/
theorem invalidate_spec (l : LayerId) :
    ∃ x, invalidate l s = s.setLayer l x ∧ (∀ o, staleAt x o = true)
      ∧ { x with stale := (s.layer l).stale } = s.layer l := by
  refine ⟨_, rfl, fun o => ?_, rfl⟩
  simp only [staleAt, allMarked, Store.read_tabulate, unlistedMark, ite_self]

end Sys2Proof.Machine
end

