-- ==== Sys2Proof/Laws/PerInstr.lean ====
section
/-!
SUPPORT. Statements about every transaction as syntax, one lemma for each constructor.
FieldsOk: the fields of a well-formed transaction fit their widths, so that the encoder drops no bit of an operand.
-/

namespace Sys2Proof.Laws.FieldsOk

/-- The fields of a well-formed transaction fit the word (R110). -/
def Statement (i : Instr) : Prop := i.wellFormed = true → FieldsFit (instrFields i)

theorem tileWr (l : Nat) (off : Nat) (data : Word) (mask : Word) : Statement (.tileWr l off data mask) := by
  simp [Statement, Instr.wellFormed, FieldsFit, instrFields, writeFields, subOk, offsetOk]

theorem tileRd (l : Nat) (off : Nat) : Statement (.tileRd l off) := by
  simp [Statement, Instr.wellFormed, FieldsFit, instrFields, readFields, subOk, offsetOk]

theorem rscrWr (l : Nat) (off : Nat) (data : Word) (mask : Word) : Statement (.rscrWr l off data mask) := by
  simp [Statement, Instr.wellFormed, FieldsFit, instrFields, writeFields, subOk, offsetOk]

theorem rscrRd (l : Nat) (off : Nat) : Statement (.rscrRd l off) := by
  simp [Statement, Instr.wellFormed, FieldsFit, instrFields, readFields, subOk, offsetOk]

theorem cscrWr (l : Nat) (off : Nat) (data : Word) (mask : Word) : Statement (.cscrWr l off data mask) := by
  simp [Statement, Instr.wellFormed, FieldsFit, instrFields, writeFields, subOk, offsetOk]

theorem cscrRd (l : Nat) (off : Nat) : Statement (.cscrRd l off) := by
  simp [Statement, Instr.wellFormed, FieldsFit, instrFields, readFields, subOk, offsetOk]

theorem ctrlWr (b : Nat) (off : Nat) (data : Word) (mask : Word) : Statement (.ctrlWr b off data mask) := by
  simp [Statement, Instr.wellFormed, FieldsFit, instrFields, writeFields, subOk, offsetOk]

theorem ctrlRd (b : Nat) (off : Nat) : Statement (.ctrlRd b off) := by
  simp [Statement, Instr.wellFormed, FieldsFit, instrFields, readFields, subOk, offsetOk]

theorem palWr0 (off : Nat) (data : Word) (mask : Word) : Statement (.palWr0 off data mask) := by
  simp [Statement, Instr.wellFormed, FieldsFit, instrFields, writeFields, offsetOk]

theorem palRd0 (off : Nat) : Statement (.palRd0 off) := by
  simp [Statement, Instr.wellFormed, FieldsFit, instrFields, readFields, offsetOk]

theorem palWr1 (off : Nat) (data : Word) (mask : Word) : Statement (.palWr1 off data mask) := by
  simp [Statement, Instr.wellFormed, FieldsFit, instrFields, writeFields, offsetOk]

theorem palRd1 (off : Nat) : Statement (.palRd1 off) := by
  simp [Statement, Instr.wellFormed, FieldsFit, instrFields, readFields, offsetOk]

theorem sprWr (off : Nat) (data : Word) (mask : Word) : Statement (.sprWr off data mask) := by
  simp [Statement, Instr.wellFormed, FieldsFit, instrFields, writeFields, offsetOk]

theorem sprRd (off : Nat) : Statement (.sprRd off) := by
  simp [Statement, Instr.wellFormed, FieldsFit, instrFields, readFields, offsetOk]

theorem dmaWr : Statement .dmaWr := by
  simp [Statement, FieldsFit, instrFields, writeFields]

theorem dmaRd : Statement .dmaRd := by
  simp [Statement, FieldsFit, instrFields, readFields]

theorem protWr (data : Word) (mask : Word) : Statement (.protWr data mask) := by
  simp [Statement, FieldsFit, instrFields, writeFields]

theorem protRd : Statement .protRd := by
  simp [Statement, FieldsFit, instrFields, readFields]

theorem frameRender : Statement .frameRender := by
  simp [Statement, FieldsFit, instrFields, actionFields, writeFields]

theorem hUpdate (l : Nat) : Statement (.hUpdate l) := by
  simp [Statement, Instr.wellFormed, FieldsFit, instrFields, actionFields, writeFields, offsetOk]

theorem hRender (l : Nat) : Statement (.hRender l) := by
  simp [Statement, Instr.wellFormed, FieldsFit, instrFields, actionFields, writeFields, offsetOk]

theorem hDraw (l : Nat) (pass : LayerPass) : Statement (.hDraw l pass) := by
  simp [Statement, Instr.wellFormed, FieldsFit, instrFields, actionFields, writeFields, offsetOk]

theorem hSprdraw (pass : SprPass) : Statement (.hSprdraw pass) := by
  simp [Statement, FieldsFit, instrFields, actionFields, writeFields]

theorem hMarkused (i : Nat) : Statement (.hMarkused i) := by
  simp [Statement, Instr.wellFormed, FieldsFit, instrFields, actionFields, writeFields, offsetOk]

theorem hRecompute : Statement .hRecompute := by
  simp [Statement, FieldsFit, instrFields, actionFields, writeFields]

theorem hSetflip (l : Nat) (f : Bool) : Statement (.hSetflip l f) := by
  simp [Statement, Instr.wellFormed, FieldsFit, instrFields, actionFields, writeFields, offsetOk]

theorem hMarkalldirty (l : Nat) : Statement (.hMarkalldirty l) := by
  simp [Statement, Instr.wellFormed, FieldsFit, instrFields, actionFields, writeFields, offsetOk]

theorem hLatchscroll (l : Nat) : Statement (.hLatchscroll l) := by
  simp [Statement, Instr.wellFormed, FieldsFit, instrFields, actionFields, writeFields, offsetOk]

theorem hClearused : Statement .hClearused := by
  simp [Statement, FieldsFit, instrFields, actionFields, writeFields]

theorem hInvalidate (l : Nat) : Statement (.hInvalidate l) := by
  simp [Statement, Instr.wellFormed, FieldsFit, instrFields, actionFields, writeFields, offsetOk]

theorem hFill : Statement .hFill := by
  simp [Statement, FieldsFit, instrFields, actionFields, writeFields]

theorem hOutput : Statement .hOutput := by
  simp [Statement, FieldsFit, instrFields, actionFields, writeFields]

end Sys2Proof.Laws.FieldsOk
end

