-- ==== Sys2Proof/Laws/Sequencer.lean ====
section
/-!
SUPPORT. What the steps of a frame can do.
-/

namespace Sys2Proof.Machine

variable (s : State)

/-- What every application of `f` keeps, an operation on every layer keeps. -/
theorem forLayers_induct {P : State → Prop} (f : LayerId → State → State) (h0 : P s)
    (h : ∀ l t, P t → P (f l t)) : P (forLayers f s) := by
  unfold forLayers
  generalize layersOf s.cfg = ls
  induction ls generalizing s with
  | nil => exact h0
  | cons l t ih => exact ih (f l s) (h l s h0)

/-- An operation on every layer of a legal board, when its effect on a layer is a function of the board, the control words
and that layer's own state: each layer takes its own effect, nothing else changes. -/
theorem forLayers_eq (hb : boardLegal s.cfg = true) (f : LayerId → State → State)
    (g : Cfg → Store Word → LayerId → LayerState → LayerState)
    (h : ∀ l t, f l t = t.setLayer l (g t.cfg t.cr l (t.layer l))) :
    forLayers f s
      = { s with
          bg := g s.cfg s.cr .bg s.bg, mida := g s.cfg s.cr .mida s.mida
          midb := g s.cfg s.cr .midb s.midb, fg := g s.cfg s.cr .fg s.fg } := by
  simp only [forLayers, layersOf_legal hb, List.foldl_cons, List.foldl_nil, h]
  rfl

/-- The layers after `forLayers_eq`. -/
theorem forLayers_layer (hb : boardLegal s.cfg = true) (f : LayerId → State → State)
    (g : Cfg → Store Word → LayerId → LayerState → LayerState)
    (h : ∀ l t, f l t = t.setLayer l (g t.cfg t.cr l (t.layer l))) (k : LayerId) :
    (forLayers f s).layer k = g s.cfg s.cr k (s.layer k) := by
  rw [forLayers_eq s hb f g h]
  cases k <;> rfl

/-- The control words decide the latched scroll state (R215). -/
theorem resolveScroll_eq {s t : State} (l : LayerId) (hc : t.cfg = s.cfg) (hr : t.cr = s.cr) :
    resolveScroll l t = resolveScroll l s := by
  simp only [resolveScroll, crAt, hc, hr]

/-- FILL: the backdrop everywhere, nothing else (R397). -/
theorem fillBackdrop_spec :
    (∀ x y, x < s.cfg.screenW → y < s.cfg.screenH → compAt (fillBackdrop s) x y = s.cfg.backdrop)
      ∧ { fillBackdrop s with comp := s.comp } = s := by
  refine ⟨fun x y hx hy => ?_, rfl⟩
  simp only [compAt, fillBackdrop, Store.read_tabulate, screenKey_lt hx hy, if_true]

/-- Step 6: every pixel through PUB, nothing else (R388). -/
theorem stepOutput_spec :
    (∀ x y, x < s.cfg.screenW → y < s.cfg.screenH → outAt (stepOutput s) x y = pubAt s (compAt s x y))
      ∧ { stepOutput s with out := s.out } = s := by
  refine ⟨fun x y hx hy => ?_, rfl⟩
  simp only [outAt, stepOutput, Store.read_tabulate, screenKey_lt hx hy, if_true, screenKey_mod_div hx]

/-- A draw writes COMP only (R386). -/
theorem runPass_eq (p : FramePass) : ∃ m, runPass p s = { s with comp := m } := by
  cases p <;> exact ⟨_, rfl⟩

theorem runPasses_eq (ps : List FramePass) :
    ∃ m, ps.foldl (fun acc p => runPass p acc) s = { s with comp := m } := by
  induction ps generalizing s with
  | nil => exact ⟨s.comp, rfl⟩
  | cons p t ih =>
    obtain ⟨m, hm⟩ := runPass_eq s p
    obtain ⟨m', hm'⟩ := ih (runPass p s)
    exact ⟨m', by rw [List.foldl_cons, hm', hm]⟩

/-- Step 5 writes COMP only (R386). -/
theorem stepComposite_eq : ∃ m, stepComposite s = { s with comp := m } := by
  obtain ⟨m, hm⟩ := runPasses_eq (fillBackdrop s) (framePasses (midLayers s).1 (midLayers s).2)
  exact ⟨m, by rw [stepComposite, hm]; rfl⟩

/-- The used flags after the accumulation: those of the accumulated indices (R271, R384). -/
theorem stepAccumulate_spec :
    (∀ j, usedAt (stepAccumulate s) j = decide (j ∈ accumulated s)) ∧ { stepAccumulate s with used := s.used } = s := by
  refine ⟨fun j => ?_, rfl⟩
  have h := (accumulate_spec (clearUsed s)).1 j
  rw [(clearUsed_spec s).1 j, Bool.or_false] at h
  exact h

/-- Step 4 leaves the used flags (R385). -/
theorem stepPalette_used : (stepPalette s).used = s.used := by
  have hf : ∀ (f : LayerId → State → State), (∀ l t, (f l t).used = t.used) → ∀ u, (forLayers f u).used = u.used :=
    fun f hf u => forLayers_induct (P := fun t => t.used = u.used) u f rfl fun l t h => by rw [hf, h]
  have hr : (recompute s).used = s.used := by
    unfold recompute
    split <;> rfl
  unfold stepPalette
  split
  · rw [hf renderLayer fun _ _ => rfl, hf invalidate fun _ _ => rfl, hr]
  · exact hr

/-- The used flags after a frame are those of its accumulation. -/
theorem renderFrame_used :
    (renderFrame s).used = (stepAccumulate (stepUpdate (stepScroll (stepFlip s)))).used := by
  have hc : ∀ u, (countFrame (stepOutput u)).used = u.used := fun _ => rfl
  have hp : ∀ u, (stepComposite u).used = u.used := fun u => by
    obtain ⟨m, hm⟩ := stepComposite_eq u
    rw [hm]
  unfold renderFrame
  generalize stepAccumulate (stepUpdate (stepScroll (stepFlip s))) = v
  rw [hc, hp, stepPalette_used]

end Sys2Proof.Machine
end

