-- ==== Sys2Proof/Tests/Slice0.lean ====
section
/-!
SUPPORT. The model's own tests: ill-formed transactions, every constructor's decoding from words written out from the
spec, one-step tests with the spec's expected values, and a witness for every statement that has hypotheses.
-/

open Sys2Proof Sys2Proof.Machine

namespace Sys2Proof.Tests

/-! ## WellFormed refuses each ill-formed term (R110: SUB is 3 bits, OFFSET 16 bits) -/

theorem test_wf_tile_layer : (Instr.tileWr 8 0 0 0).wellFormed = false ∧ (Instr.tileRd 8 0).wellFormed = false :=
  by decide

theorem test_wf_tile_offset :
    (Instr.tileWr 7 65536 0 0).wellFormed = false ∧ (Instr.tileRd 7 65536).wellFormed = false := by decide

theorem test_wf_scroll_layer :
    (Instr.rscrWr 8 0 0 0).wellFormed = false ∧ (Instr.rscrRd 8 0).wellFormed = false
      ∧ (Instr.cscrWr 8 0 0 0).wellFormed = false ∧ (Instr.cscrRd 8 0).wellFormed = false := by decide

theorem test_wf_scroll_offset :
    (Instr.rscrWr 0 65536 0 0).wellFormed = false ∧ (Instr.rscrRd 0 65536).wellFormed = false
      ∧ (Instr.cscrWr 0 65536 0 0).wellFormed = false ∧ (Instr.cscrRd 0 65536).wellFormed = false := by decide

theorem test_wf_control :
    (Instr.ctrlWr 8 0 0 0).wellFormed = false ∧ (Instr.ctrlRd 8 0).wellFormed = false
      ∧ (Instr.ctrlWr 0 65536 0 0).wellFormed = false ∧ (Instr.ctrlRd 0 65536).wellFormed = false := by decide

theorem test_wf_palette :
    (Instr.palWr0 65536 0 0).wellFormed = false ∧ (Instr.palRd0 65536).wellFormed = false
      ∧ (Instr.palWr1 65536 0 0).wellFormed = false ∧ (Instr.palRd1 65536).wellFormed = false := by decide

theorem test_wf_sprite : (Instr.sprWr 65536 0 0).wellFormed = false ∧ (Instr.sprRd 65536).wellFormed = false :=
  by decide

theorem test_wf_harness :
    (Instr.hUpdate 65536).wellFormed = false ∧ (Instr.hRender 65536).wellFormed = false
      ∧ (Instr.hDraw 65536 .back).wellFormed = false ∧ (Instr.hMarkused 65536).wellFormed = false
      ∧ (Instr.hSetflip 65536 true).wellFormed = false ∧ (Instr.hMarkalldirty 65536).wellFormed = false
      ∧ (Instr.hLatchscroll 65536).wellFormed = false ∧ (Instr.hInvalidate 65536).wellFormed = false := by decide

/-! ## Decoding: words written out from R110, R118, R121, R122, R143 and the vectors V-ENC-1 to V-ENC-28 -/

theorem test_decode_tile_wr : decode 0x1B0000A5FFFF3042 = .ok (.tileWr 3 0x00A5 0x3042 0xFFFF) := rfl

theorem test_decode_tile_wrh : decode 0x18000010FF001200 = .ok (.tileWr 0 0x0010 0x1200 0xFF00) := rfl

theorem test_decode_tile_rd : decode 0x130000A500000000 = .ok (.tileRd 3 0x00A5) := rfl

theorem test_decode_rscr_wr : decode 0x2B000000FFFF0008 = .ok (.rscrWr 3 0x0000 0x0008 0xFFFF) := rfl

theorem test_decode_rscr_rd : decode 0x2300020000000000 = .ok (.rscrRd 3 0x0200) := rfl

theorem test_decode_cscr_wr : decode 0x3A00000100FF0010 = .ok (.cscrWr 2 0x0001 0x0010 0x00FF) := rfl

theorem test_decode_cscr_rd : decode 0x3200000100000000 = .ok (.cscrRd 2 0x0001) := rfl

theorem test_decode_ctrl_wr : decode 0x4800000000800080 = .ok (.ctrlWr 0 0 0x0080 0x0080) := rfl

theorem test_decode_ctrl_rd : decode 0x4000000100000000 = .ok (.ctrlRd 0 1) := rfl

theorem test_decode_pal_wr0 : decode 0x58000032FFFF3456 = .ok (.palWr0 0x0032 0x3456 0xFFFF) := rfl

theorem test_decode_pal_rd0 : decode 0x5000083200000000 = .ok (.palRd0 0x0832) := rfl

theorem test_decode_pal_wr1 : decode 0x59000032FFFF0078 = .ok (.palWr1 0x0032 0x0078 0xFFFF) := rfl

theorem test_decode_pal_rd1 : decode 0x5100003200000000 = .ok (.palRd1 0x0032) := rfl

theorem test_decode_spr_wr : decode 0x68000001FFFF2005 = .ok (.sprWr 0x0001 0x2005 0xFFFF) := rfl

theorem test_decode_spr_rd : decode 0x6000040100000000 = .ok (.sprRd 0x0401) := rfl

theorem test_decode_dma_wr : decode 0x7800345678ABCDEF = .ok .dmaWr := rfl

theorem test_decode_dma_rd : decode 0x7000123400000000 = .ok .dmaRd := rfl

theorem test_decode_prot_wr : decode 0x8800FFFFFFFF00F1 = .ok (.protWr 0x00F1 0xFFFF) := rfl

theorem test_decode_prot_rd : decode 0x8000000000000000 = .ok .protRd := rfl

theorem test_decode_frame_render : decode 0x9800000000000000 = .ok .frameRender := rfl

theorem test_decode_h_update : decode 0xF800000300000000 = .ok (.hUpdate 3) := rfl

theorem test_decode_h_render : decode 0xF900000300000000 = .ok (.hRender 3) := rfl

theorem test_decode_h_draw : decode 0xFA00000300000001 = .ok (.hDraw 3 .front) := rfl

theorem test_decode_h_sprdraw : decode 0xFB00000000000001 = .ok (.hSprdraw .high) := rfl

theorem test_decode_h_markused : decode 0xFC00003200000000 = .ok (.hMarkused 0x0032) := rfl

theorem test_decode_h_recompute : decode 0xFD00000000000000 = .ok .hRecompute := rfl

theorem test_decode_h_setflip : decode 0xFE00000100000001 = .ok (.hSetflip 1 true) := rfl

theorem test_decode_h_markalldirty : decode 0xFF00000300000000 = .ok (.hMarkalldirty 3) := rfl

theorem test_decode_h_latchscroll : decode 0xE800000200000000 = .ok (.hLatchscroll 2) := rfl

theorem test_decode_h_clearused : decode 0xE900000000000000 = .ok .hClearused := rfl

theorem test_decode_h_invalidate : decode 0xEA00000100000000 = .ok (.hInvalidate 1) := rfl

theorem test_decode_h_fill : decode 0xEB00000000000000 = .ok .hFill := rfl

theorem test_decode_h_output : decode 0xEC00000000000000 = .ok .hOutput := rfl

/-- V-ENC-12: a layer the board lacks decodes. -/
theorem test_decode_absent_layer : decode 0x1C000000FFFF0000 = .ok (.tileWr 4 0 0 0xFFFF) := rfl

/-- V-ENC-13, V-ENC-14, V-ENC-15. -/
theorem test_refuse_region_and_rsvd :
    decode 0x0000000000000000 = .error .region ∧ decode 0xA800000000000000 = .error .region
      ∧ decode 0x1B010000FFFF0000 = .error .rsvdBits := ⟨rfl, rfl, rfl⟩

/-- V-ENC-16, V-ENC-17, V-ENC-27. -/
theorem test_refuse_sub :
    decode 0x5A000000FFFF0000 = .error .sub ∧ decode 0x6900000000000000 = .error .sub
      ∧ decode 0xED00000000000000 = .error .sub := ⟨rfl, rfl, rfl⟩

/-- V-ENC-18 to V-ENC-21. -/
theorem test_refuse_read_and_frame_fields :
    decode 0x130000A500000001 = .error .readFields ∧ decode 0x8000000000010000 = .error .readFields
      ∧ decode 0x9800000000000001 = .error .frameFields ∧ decode 0x9000000000000000 = .error .frameFields :=
  ⟨rfl, rfl, rfl, rfl⟩

/-- V-ENC-22 to V-ENC-26, V-ENC-28. -/
theorem test_refuse_harness :
    decode 0xF000000000000000 = .error .harnessFields ∧ decode 0xF8000003FFFF0000 = .error .harnessFields
      ∧ decode 0xF800000300000001 = .error .arg ∧ decode 0xFB00000100000000 = .error .arg
      ∧ decode 0xFA00000300000002 = .error .arg ∧ decode 0xE900000100000000 = .error .arg :=
  ⟨rfl, rfl, rfl, rfl, rfl, rfl⟩

/-- R434: the reason codes. -/
theorem test_refuse_codes :
    [RefuseReason.rsvdBits, .region, .sub, .readFields, .frameFields, .harnessFields, .arg].map refuseCode
      = [1, 2, 3, 4, 5, 6, 7] := rfl

/-! ## A small board, with the test configuration TC (R359) and test graphics in the manner of TG -/

/-- A layer of one 8 by 8 cell. -/
def tinyLayer (dec : DecKind) (op sp : Bool) (base cb : Nat) (sl : Slot) : LayerCfg :=
  { cols := 1, rows := 1, cw := 8, ch := 8, scan := .rowMajor, dec := dec, isOpaque := op, transPen := 0, split := sp,
    splitPen := 8, palBase := base, gfxBank := 0, cb := cb, slot := sl }

/-- The pixels of tiles 0 and 2 of bank 0: pen 0 and pen 2 everywhere. -/
def tinyTiles : List TilePixel :=
  (List.range 128).map fun k =>
    { bank := 0, tile := if k < 64 then 0 else 2, x := k % 8, y := k / 8 % 8, pen := if k < 64 then 0 else 2 }

/-- A legal board of a 2 by 1 screen, two sprites and 128 palette entries. -/
def tinyBoard : Cfg :=
  { withTestConfiguration Config.defaultBoard with
    bg := tinyLayer .banked true true 48 0 .a, mida := tinyLayer .simple false false 16 0 .b
    midb := tinyLayer .simple false false 32 1 .a, fg := tinyLayer .simple false false 0 1 .b
    screenW := 2, screenH := 1, palN := 128, sprRamWords := 8, sprN := 2, sprPalBase := 64
    tileRom := tinyTiles, regionBase := [] }

/-- The small board after reset, all storage 0 as in S0 of 95_test_vectors.md. -/
def tiny : State := { State.reset with cfg := tinyBoard }

/-- What a step's next state must meet. -/
def answers (o : Host.Outcome State Fault Refusal) (p : State → Bool) : Bool :=
  match o with
  | .next t => p t
  | .fault _ => false
  | .refused _ => false

theorem test_tiny_board_is_legal : boardLegal tinyBoard = true := by decide

/-- R119, R392: the SUB check reads NL, and a board with NL = 3 is not legal. -/
theorem test_nl_three :
    boardLegal { tinyBoard with nl := 3 } = false
      ∧ answers (exec (.tileRd 3 0) { tiny with cfg := { tinyBoard with nl := 3 } })
          (fun t => t.fault == some (.noWindow 1 3)) = true := by decide

/-! ## One step of each transaction -/

/-- Example of R150; an offset past the window is mirrored (V-EXC-6: 0xFFFF is 0x3FF). -/
theorem test_tile_wr :
    answers (exec (.tileWr 3 0x00A5 0x3042 0xFFFF)
        { State.reset with fg := { LayerState.reset with dirty := [(0x0A5, false)] } })
      (fun t => tileAt t.fg 0x0A5 == 0x3042 && dirtyAt t.fg 0x0A5) = true := by decide

theorem test_tile_wr_mirror :
    answers (exec (.tileWr 3 0xFFFF 0x0001 0xFFFF) State.reset) (fun t => t.fg.tile == [(0x3FF, 1)]) = true := by decide

/-- Example of R151: 0x4A5 mod 1024 is 0x0A5. -/
theorem test_tile_rd :
    answers (exec (.tileRd 3 0x04A5) { State.reset with fg := { LayerState.reset with tile := [(0x0A5, 0x3042)] } })
      (fun t => t.resp == .data 0x3042) = true := by decide

/-- Example of R152. -/
theorem test_rscr_wr :
    answers (exec (.rscrWr 3 0x0000 0x0008 0xFFFF) State.reset) (fun t => rowtabAt t.fg 0 == 0x0008) = true := by decide

/-- Example of R153: 0x200 mod 512 is 0. -/
theorem test_rscr_rd :
    answers (exec (.rscrRd 3 0x0200) { State.reset with fg := { LayerState.reset with rowtab := [(0, 0x0008)] } })
      (fun t => t.resp == .data 0x0008) = true := by decide

/-- Example of R154: the high byte is kept. -/
theorem test_cscr_wr :
    answers (exec (.cscrWr 2 0x0001 0x0010 0x00FF)
        { State.reset with midb := { LayerState.reset with coltab := [(1, 0xAB00)] } })
      (fun t => coltabAt t.midb 1 == 0xAB10) = true := by decide

/-- Example of R155. -/
theorem test_cscr_rd :
    answers (exec (.cscrRd 2 1) { State.reset with midb := { LayerState.reset with coltab := [(1, 0xAB10)] } })
      (fun t => t.resp == .data 0xAB10) = true := by decide

/-- Example of R156, here at a mirrored offset (22 mod 16 is 6). -/
theorem test_ctrl_wr :
    answers (exec (.ctrlWr 1 22 0x000D 0xFFFF) State.reset) (fun t => crAt t 1 6 == 0x000D && crAt t 0 6 == 0) = true := by
  decide

/-- R157: some value is returned, the control words stay, and a block the board lacks faults (R432). -/
theorem test_ctrl_rd :
    answers (exec (.ctrlRd 0 1) State.reset) (fun t => t.cr == [] && t.draws == 1) = true := by decide

theorem test_ctrl_rd_absent :
    answers (exec (.ctrlRd 2 1) State.reset) (fun t => t.fault == some (.noWindow 4 2)) = true := by decide

/-- Example of R158. -/
theorem test_pal_wr0 :
    answers (exec (.palWr0 0x0032 0x3456 0xFFFF) { State.reset with palDirty := false })
      (fun t => pal0At t 0x32 == 0x3456 && t.palDirty) = true := by decide

/-- R89, R90: a write that changes nothing leaves PAL_DIRTY. -/
theorem test_pal_wr0_same :
    answers (exec (.palWr0 0x0032 0x3456 0xFFFF) { State.reset with palDirty := false, pal0 := [(0x32, 0x3456)] })
      (fun t => t.palDirty == false) = true := by decide

/-- Example of R159: 0x832 mod 2048 is 0x32. -/
theorem test_pal_rd0 :
    answers (exec (.palRd0 0x0832) { State.reset with pal0 := [(0x32, 0x3456)] })
      (fun t => t.resp == .data 0x3456) = true := by decide

/-- Example of R160; bank 0 is untouched. -/
theorem test_pal_wr1 :
    answers (exec (.palWr1 0x0032 0x0078 0xFFFF) State.reset) (fun t => t.pal1 == [(0x32, 0x0078)] && t.pal0 == []) = true := by
  decide

theorem test_pal_wr1_packed :
    answers (exec (.palWr1 0x0032 0x0078 0xFFFF) { State.reset with cfg := { Config.defaultBoard with palFmt := .packedRgbx } })
      (fun t => t.fault == some (.noWindow 5 1) && t.pal1 == []) = true := by decide

/-- Example of R161. -/
theorem test_pal_rd1 :
    answers (exec (.palRd1 0x0032) { State.reset with pal1 := [(0x32, 0x0078)] })
      (fun t => t.resp == .data 0x0078) = true := by decide

/-- Example of R162. -/
theorem test_spr_wr :
    answers (exec (.sprWr 0x0001 0x2005 0xFFFF) State.reset) (fun t => sprramAt t 1 == 0x2005 && snapAt t 1 == 0) = true := by
  decide

/-- Example of R163: 0x401 mod 0x400 is 1, the live word. -/
theorem test_spr_rd :
    answers (exec (.sprRd 0x0401) { State.reset with sprram := [(1, 0x2005)], snap := [(1, 0x1111)] })
      (fun t => t.resp == .data 0x2005) = true := by decide

/-- Example of R164. -/
theorem test_dma_wr :
    answers (exec .dmaWr { tiny with sprram := [(0, 0x0064), (1, 0x2005), (2, 0x1832)], snap := [(3, 0xFFFF)] })
      (fun t => t.snap == [(0, 0x0064), (1, 0x2005), (2, 0x1832)]) = true := by decide

/-- R165: the read triggers no copy. -/
theorem test_dma_rd :
    answers (exec .dmaRd { tiny with sprram := [(0, 0x0064)] }) (fun t => t.snap == [] && t.draws == 1) = true :=
  by decide

/-- V-ARB-2: the other key of TC (R359). -/
theorem test_prot_wr_level0 :
    answers (exec (.protWr 0x00F0 0xFFFF) { tiny with pstate := .level1 })
      (fun t => t.pstate == .level0 && t.preadback == 0x0055) = true := by decide

/-- V-ARB-4. -/
theorem test_prot_wr_partial :
    answers (exec (.protWr 0x0000 0xFF00) { tiny with platch := 0x12F1 })
      (fun t => t.pstate == .level1 && t.preadback == 0x00A5) = true := by decide

/-- V-ARB-3. -/
theorem test_prot_wr_miss :
    answers (exec (.protWr 0x1234 0xFFFF) { tiny with pstate := .level1, preadback := 0x00A5 })
      (fun t => t.pstate == .level1 && t.platch == 0x1234) = true := by decide

/-- V-ARB-6. -/
theorem test_prot_rd :
    answers (exec .protRd { tiny with preadback := 0x00A5 }) (fun t => t.resp == .data 0x00A5) = true := by decide

/-- V-FRM-1 and V-FRM-3. -/
theorem test_frame_render :
    answers (exec .frameRender { tiny with frameCnt := 0xFFFFFFFF, cr := [(0, 0x0080)] })
      (fun t => t.frameCnt == 0 && t.flipPrev) = true := by decide +kernel

/-- In the manner of P1: tile 2 in colour group 3 of FG, published as (0x56, 0x34, 0x78). -/
theorem test_frame_render_out :
    answers (exec .frameRender
        { tiny with fg := { LayerState.reset with tile := [(0, 0x3002)] }, pal0 := [(0x32, 0x3456)], pal1 := [(0x32, 0x0078)] })
      (fun t => outAt t 1 0 == { r := 0x56, g := 0x34, b := 0x78 }) = true := by decide +kernel

/-- Example of R228. -/
theorem test_h_update :
    answers (exec (.hUpdate 3) { tiny with fg := { LayerState.reset with tile := [(0, 0x3042)] } })
      (fun t => infoAt t.fg 0 == { tileIndex := 0x042, colorGroup := 3, flipX := false, flipY := false, priorityBit := false }
        && dirtyAt t.fg 0 == false) = true := by decide

/-- Example of R229, with tile 2 (pen 2) in colour group 3: (2, BACK, 0x032). -/
theorem test_h_render :
    answers (exec (.hRender 3)
        { tiny with fg := { LayerState.reset with info := [(0, { unlistedInfo with tileIndex := 2, colorGroup := 3 })] } })
      (fun t => pcacheAt tinyBoard.fg t.fg 7 7 == { pen := 2, cls := .back, idx := 0x032 }) = true := by decide

/-- R223, R224: the transparent pen is not drawn, another pen is. -/
theorem test_h_draw_back :
    answers (exec (.hDraw 3 .back)
        { tiny with comp := [(0, 9), (1, 9)]
                    fg := { LayerState.reset with pcache := [(1, { pen := 2, cls := .back, idx := 0x032 })] } })
      (fun t => compAt t 0 0 == 9 && compAt t 1 0 == 0x032) = true := by decide

/-- R225: the front pass draws FRONT pixels only. -/
theorem test_h_draw_front :
    answers (exec (.hDraw 0 .front)
        { tiny with bg := { LayerState.reset with
                      pcache := [(0, { pen := 7, cls := .back, idx := 55 }), (1, { pen := 8, cls := .front, idx := 56 })] } })
      (fun t => compAt t 0 0 == 0 && compAt t 1 0 == 56) = true := by decide

/-- The sprite graphics of the tests: tile 3 has pen 3 at its left column, pen 0 elsewhere. -/
def stripe : List SprPixel :=
  (List.range 256).map fun k => { tile := 3, x := k % 16, y := k / 16, pen := if k % 16 = 0 then 3 else 0 }

/-- R319, R308: entry 0 at (1, 0), PRIO 1, COLOR 1: index base 64 + 16 + 3. -/
theorem test_h_sprdraw :
    answers (exec (.hSprdraw .high)
        { tiny with cfg := { tinyBoard with sprRom := stripe }, snap := [(1, 0x0003), (2, 0x1801)] })
      (fun t => compAt t 0 0 == 0 && compAt t 1 0 == 83) = true := by decide +kernel

/-- V-SPR-8: a HIGH entry is not drawn in the LOW pass. -/
theorem test_h_sprdraw_other_pass :
    answers (exec (.hSprdraw .low)
        { tiny with cfg := { tinyBoard with sprRom := stripe }, snap := [(1, 0x0003), (2, 0x1801)] })
      (fun t => t.comp == []) = true := by decide

/-- V-PAL-4 and V-PAL-5. -/
theorem test_h_markused :
    answers (exec (.hMarkused 0x032) State.reset) (fun t => usedAt t 0x032 && t.pub == []) = true := by decide

theorem test_h_markused_absent :
    answers (exec (.hMarkused 0x800) State.reset) (fun t => t.fault == some (.badArg .hMarkused 0x800)) = true :=
  by decide

/-- Example of R272. -/
theorem test_h_recompute :
    answers (exec .hRecompute { tiny with used := [(0x32, true)], pal0 := [(0x32, 0x3456)], pal1 := [(0x32, 0x0078)] })
      (fun t => pubAt t 0x32 == { r := 0x56, g := 0x34, b := 0x78 } && t.resp == .data 1) = true := by decide

/-- V-PAL-6. -/
theorem test_h_recompute_idle :
    answers (exec .hRecompute { tiny with palDirty := false, pal0 := [(0x32, 0x3456)] })
      (fun t => t.pub == [] && t.resp == .data 0) = true := by decide

/-- R231. -/
theorem test_h_setflip :
    answers (exec (.hSetflip 0 true) { tiny with bg := { LayerState.reset with dirty := [(0, false)] } })
      (fun t => t.bg.flip && dirtyAt t.bg 0) = true := by decide

/-- R230. -/
theorem test_h_markalldirty :
    answers (exec (.hMarkalldirty 3) { tiny with fg := { LayerState.reset with dirty := [(0, false)] } })
      (fun t => dirtyAt t.fg 0) = true := by decide

/-- Slot B of block 1 in ROW mode with GRAN 3 (R156, R215): gran 8. -/
theorem test_h_latchscroll :
    answers (exec (.hLatchscroll 3) { tiny with cr := [(19, 0x0104), (20, 0x0002), (22, 0x000D)] })
      (fun t => t.fg.scr == { mode := .row, sx := 0x0104, sy := 0x0002, gran := 8 }) = true := by decide

/-- V-PAL-12. -/
theorem test_h_clearused :
    answers (exec .hClearused { tiny with used := [(5, true)], usedPrev := [(6, true)] })
      (fun t => t.used == [] && t.usedPrev == [(6, true)]) = true := by decide

/-- V-PAL-11. -/
theorem test_h_invalidate :
    answers (exec (.hInvalidate 1) { tiny with mida := { LayerState.reset with stale := [(0, false)] } })
      (fun t => staleAt t.mida 0) = true := by decide

/-- R397, on a board whose backdrop is 5. -/
theorem test_h_fill :
    answers (exec .hFill { tiny with cfg := { tinyBoard with backdrop := 5 } })
      (fun t => compAt t 0 0 == 5 && compAt t 1 0 == 5) = true := by decide

/-- Example of R398; V-FRM-9. -/
theorem test_h_output :
    answers (exec .hOutput { tiny with comp := [(0, 0x32)], pub := [(0x32, { r := 0x56, g := 0x34, b := 0x78 })] })
      (fun t => outAt t 0 0 == { r := 0x56, g := 0x34, b := 0x78 } && t.frameCnt == 0) = true := by decide

/-! ## Shared operations: worked examples of the spec -/

/-- Examples of R201, R202, R203. -/
theorem test_scan :
    scan Config.fgLayer 5 5 = 0x0A5 ∧ scan Config.midbLayer 2 3 = 0x043 ∧ scan Config.bgLayer 33 1 = 0x421
      ∧ scan Config.bgLayer 0 32 = 0x800 := by decide

/-- Examples of R207 and R208. -/
theorem test_decoders :
    decodeSimple 0x3042
        = { tileIndex := 0x042, colorGroup := 3, flipX := false, flipY := false, priorityBit := false }
      ∧ decodeBanked 0x7A42
        = { tileIndex := 0x142, colorGroup := 2, flipX := true, flipY := true, priorityBit := true } := by decide

/-- V-PAL-1, V-PAL-3. -/
theorem test_colours :
    rgbSplit 0x3456 0xFF78 = { r := 0x56, g := 0x34, b := 0x78 } ∧ rgbPacked 0xF80C = { r := 0xFF, g := 0x88, b := 0x00 }
      ∧ rgbPacked 0x1230 = { r := 0x11, g := 0x22, b := 0x33 } := by decide

/-- V-SPR-1. -/
theorem test_sext :
    sext 9 0x1F6 = -10 ∧ sext 9 0x3F6 = -10 ∧ sext 9 0x2F6 = 246 ∧ sext 9 0x100 = -256 ∧ sext 9 0x0FF = 255 := by decide

/-- V-SPR-2 and V-SPR-5: TILE 5, h 2, y 100, without and with the screen flip. -/
theorem test_chain :
    ((spriteCells { State.reset with snap := [(0, 0x0064), (1, 0x2005), (2, 0x1832)] } false 0).map
        fun q => (q.code, q.cy)) = [(5, 100), (6, 84), (7, 68), (8, 52)]
      ∧ ((spriteCells { State.reset with snap := [(0, 0x0064), (1, 0x2005), (2, 0x1832)] } true 0).map
        fun q => q.cy) = [124, 140, 156, 172] := by decide

/-- Example of R217: rows 0 to 7 use entry 0, row 8 entry 1. -/
theorem test_row_scroll :
    scrollWith Config.defaultBoard Config.fgLayer { LayerState.reset with rowtab := [(0, 8)] }
        { mode := .row, sx := 0, sy := 0, gran := 8 } 0 7 = (8, 7)
      ∧ scrollWith Config.defaultBoard Config.fgLayer { LayerState.reset with rowtab := [(0, 8)] }
        { mode := .row, sx := 0, sy := 0, gran := 8 } 0 8 = (0, 8) := by decide

/-- Example of R218. -/
theorem test_col_scroll :
    scrollWith Config.defaultBoard Config.midbLayer { LayerState.reset with coltab := [(1, 0x10)] }
        { mode := .col, sx := 0, sy := 0, gran := 16 } 16 3 = (16, 19) := by decide

/-- R84: the even byte address is the high lane by default. -/
theorem test_byte_lanes :
    laneMask Config.defaultBoard.laneMap 4 = 0xFF00 ∧ laneMask Config.defaultBoard.laneMap 5 = 0x00FF := by decide

/-- A board whose CPU sees the two bytes of FG's words at separate addresses (R84, R206), and MIDA's words at even ones. -/
def splitBoard : Cfg :=
  { tinyBoard with
    regionBase :=
      [{ base := 0x2000, words := 0x400, stride := 1, region := 1, sub := 3 },
       { base := 0x2400, words := 0x400, stride := 1, region := 1, sub := 3 },
       { base := 0x3000, words := 0x800, stride := 2, region := 1, sub := 1 }]
    laneMap :=
      { spans := [{ base := 0x2000, size := 0x400, rule := .allLow }, { base := 0x2400, size := 0x400, rule := .allHigh }]
        rest := .evenHigh } }

theorem test_split_bytes :
    cpuWriteByte splitBoard 0x20A5 0x42 = some (.tileWr 3 0xA5 0x4242 0x00FF)
      ∧ cpuWriteByte splitBoard 0x24A5 0x30 = some (.tileWr 3 0xA5 0x3030 0xFF00)
      ∧ cpuWriteByte splitBoard 0x3003 0x42 = some (.tileWr 1 1 0x4242 0x00FF) := by decide

/-- R86, log 24: a word write at an odd byte address, or to bytes at separate addresses, names no transaction. -/
theorem test_word_write :
    cpuWriteWord splitBoard 0x3002 0x3042 = some (.tileWr 1 1 0x3042 0xFFFF) ∧ cpuWriteWord splitBoard 0x3003 0x3042 = none
      ∧ cpuWriteWord splitBoard 0x20A4 0x3042 = none := by decide

/-- R140, R141. -/
theorem test_assembly : assembly (.tileRd 3 165) = "TILE.RD 3, 165" ∧ assembly .dmaWr = "DMA.WR" := by decide +kernel

/-! ## Steps -/

/-- A fetched word runs; a refused word sets REFUSED (R434); a halted block holds (R431); an idle block holds (R451). -/
theorem test_step_fetch :
    answers (step (tiny.withFetchWord 64 0x5800003200FF3456)) (fun t => pal0At t 0x32 == 0x56 && t.port == []) = true := by
  decide

theorem test_step_refused :
    answers (step (tiny.withFetchWord 64 0)) (fun t => t.refused && t.resp == .silent) = true := by decide

theorem test_step_halted :
    answers (step ({ tiny with refused := true }.withFetchWord 64 0x5800003200FF3456)) (fun t => t.pal0 == []) = true := by
  decide

theorem test_step_idle : step tiny = .next tiny := rfl

/-! ## Witnesses: states and operands that meet every hypothesis of a statement, each clause at its boundary -/

/-- The small board with no DIRTY or STALE flag on FG (whose one cell is coherent), the palette published, and one
pending word. -/
def work (w : Txn) : State :=
  { tiny with
    fg := { LayerState.reset with dirty := [(0, false)], stale := [(0, false)] }
    palDirty := false, used := [(0x32, true)], usedPrev := [(0x32, true)], pal0 := [(0x32, 0x3456)], pal1 := [(0x32, 0x0078)]
    pub := [(0x32, { r := 0x56, g := 0x34, b := 0x78 })], port := [w] }

theorem work_board (w : Txn) : boardLegal (work w).cfg = true := test_tiny_board_is_legal

theorem work_info (w : Txn) : InfoCoherent (work w) := by
  intro l o ho hd
  cases l
  · cases hd
  · cases hd
  · cases hd
  · have h0 : o = 0 := Nat.lt_one_iff.mp ho
    subst h0
    show infoAt ((work 0).layer .fg) 0 = decodeInfo .simple (tileAt ((work 0).layer .fg) 0)
    decide

theorem work_cache (w : Txn) : CacheCoherent (work w) := by
  have hfg : ∀ lx, lx < 8 → ∀ ly, ly < 8 →
      (unlistedPixel == lpixInfo tinyBoard tinyBoard.fg unlistedInfo (lx % 8) (ly % 8)) = true := by decide
  intro l lx ly hx hy hs
  cases l
  · cases hs
  · cases hs
  · cases hs
  · exact eq_of_beq (hfg lx hx ly hy)

theorem work_pub (w : Txn) : PubCoherent (work w) := by
  intro _ i _ hu
  by_cases h : i = 0x32
  · subst h
    show pubAt (work 0) 0x32 = rgbOf (work 0) 0x32
    decide
  · have hn : usedPrevAt (work w) i = false := by
      show Store.read unlistedUse [(0x32, true)] i = false
      simp [Store.read, unlistedUse, Ne.symm h]
    rw [hn] at hu
    cases hu

theorem work_index (w : Txn) : IndexBounded (work w) := by
  refine ⟨fun k => ?_, fun l k => ?_⟩
  · show 0 < 128
    decide
  · cases l <;> (show 0 < 128; decide)

theorem work_gran (w : Txn) : GranBounded (work w) := by
  intro l
  cases l <;> (show 0 < 1 ∧ 1 ≤ 2 ^ 9; decide)

theorem work_silent (w : Txn) : HaltedSilent (work w) := fun _ => rfl

theorem work_flip (w : Txn) : FlipSync (work w) := by
  intro l
  cases l <;> rfl

theorem work_mem (w : Txn) : memWf (work w) = true := by
  show memWf (work 0) = true
  decide

theorem work_running (w : Txn) : halted (work w) = false := rfl

/-- The step of a pending H.CLEARUSED. -/
theorem work_step : step (work 0xE900000000000000) = .next { work 0 with used := [], port := [] } := rfl

/-! ### Encoding and steps -/

theorem witness_DecodeOfEncodeIsTheTransaction : (Instr.tileWr 7 0xFFFF 0x1234 0xFFFF).wellFormed = true := by decide

theorem witness_DecodedWordIsReencoded :
    decode 0x1B0000A5FFFF3042 = .ok (.tileWr 3 0x00A5 0x3042 0xFFFF)
      ∧ Instr.tileWr 3 0x00A5 0x3042 0xFFFF ≠ .dmaWr ∧ Instr.tileWr 3 0x00A5 0x3042 0xFFFF ≠ .dmaRd
      ∧ Instr.tileWr 3 0x00A5 0x3042 0xFFFF ≠ .protRd ∧ ∀ d m, Instr.tileWr 3 0x00A5 0x3042 0xFFFF ≠ .protWr d m :=
  ⟨rfl, nofun, nofun, nofun, nofun⟩

theorem witness_RefusedWordsAreExactlyTheListedOnes :
    (work 0xED00000000000000).port = [0xED00000000000000] ∧ boardLegal (work 0xED00000000000000).cfg = true
      ∧ halted (work 0xED00000000000000) = false ∧ decode 0xED00000000000000 = .error .sub :=
  ⟨rfl, work_board _, rfl, rfl⟩

theorem witness_StepPerformsTheDecodedTransaction :
    (work 0x9800000000000000).port = [0x9800000000000000] ∧ boardLegal (work 0x9800000000000000).cfg = true
      ∧ halted (work 0x9800000000000000) = false ∧ decode 0x9800000000000000 = .ok .frameRender :=
  ⟨rfl, work_board _, rfl, rfl⟩

theorem witness_HaltedBlockIsStuck :
    (boardLegal { tiny with refused := true }.cfg = true ∧ HaltedSilent { tiny with refused := true }
        ∧ { tiny with refused := true }.refused = true)
      ∧ boardLegal { tiny with fault := some (.noWindow 1 4) }.cfg = true
      ∧ HaltedSilent { tiny with fault := some (.noWindow 1 4) } ∧ { tiny with fault := some (.noWindow 1 4) }.fault ≠ none :=
  ⟨⟨test_tiny_board_is_legal, fun _ => rfl, rfl⟩, test_tiny_board_is_legal, fun _ => rfl, by decide⟩

theorem witness_OnlyAnIllegalBoardIsRefused :
    (boardLegal tiny.cfg = true ∧ tiny.port = [])
      ∧ boardLegal { work 0 with cfg := { tinyBoard with backdrop := 128 } }.cfg = false
      ∧ { work 0 with cfg := { tinyBoard with backdrop := 128 } }.port = [0] :=
  ⟨⟨test_tiny_board_is_legal, rfl⟩, by decide, rfl⟩

theorem witness_LaunchIsCoherent : Launch { tiny with comp := [(0, 7)], pal0 := [(3, 5)] } := by
  refine ⟨fun l => ?_, rfl, fun _ => rfl, fun _ => rfl, rfl, rfl, rfl, rfl, rfl, rfl, rfl⟩
  cases l <;> exact ⟨fun _ => rfl, fun _ => rfl, rfl⟩

theorem witness_StepKeepsMemoryForm :
    memWf (work 0xE900000000000000) = true
      ∧ step (work 0xE900000000000000) = .next { work 0 with used := [], port := [] } := ⟨work_mem _, work_step⟩

theorem witness_StepKeepsCacheCoherence :
    InfoCoherent (work 0xE900000000000000) ∧ CacheCoherent (work 0xE900000000000000)
      ∧ step (work 0xE900000000000000) = .next { work 0 with used := [], port := [] } :=
  ⟨work_info _, work_cache _, work_step⟩

theorem witness_StepKeepsPublishedPalette :
    PubCoherent (work 0xE900000000000000)
      ∧ step (work 0xE900000000000000) = .next { work 0 with used := [], port := [] } := ⟨work_pub _, work_step⟩

theorem witness_StepKeepsIndexBounds :
    IndexBounded (work 0xE900000000000000) ∧ GranBounded (work 0xE900000000000000)
      ∧ step (work 0xE900000000000000) = .next { work 0 with used := [], port := [] } :=
  ⟨work_index _, work_gran _, work_step⟩

/-- A running state, and a halted one (its step is the identity). -/
theorem witness_StepKeepsHaltedSilent :
    (HaltedSilent (work 0xE900000000000000)
        ∧ step (work 0xE900000000000000) = .next { work 0 with used := [], port := [] })
      ∧ HaltedSilent { work 0 with refused := true }
      ∧ step { work 0 with refused := true } = .next { work 0 with refused := true }
      ∧ halted { work 0 with refused := true } = true :=
  ⟨⟨work_silent _, work_step⟩, fun _ => rfl, rfl, rfl⟩

theorem witness_OnlySetflipBreaksFlipSync :
    FlipSync (work 0xE900000000000000)
      ∧ step (work 0xE900000000000000) = .next { work 0 with used := [], port := [] }
      ∧ ∀ w rest l f, (work 0xE900000000000000).port = w :: rest → decode w ≠ .ok (.hSetflip l f) := by
  refine ⟨work_flip _, work_step, fun w rest l f h hd => ?_⟩
  have hw : (0xE900000000000000 : Txn) = w := (List.cons.inj h).1
  rw [← hw, test_decode_h_clearused] at hd
  cases hd

theorem witness_OnlyItsWriterChangesStorage :
    (work 0xE900000000000000).port = [0xE900000000000000] ∧ decode 0xE900000000000000 = .ok .hClearused
      ∧ step (work 0xE900000000000000) = .next { work 0 with used := [], port := [] } :=
  ⟨rfl, test_decode_h_clearused, work_step⟩

/-! ### Hypotheses of the transactions' statements: a running state; each layer number, block and bank at its bounds -/

/-- The bounds of the layer number in every statement about a layer: the four layers, and the first and last number the
board lacks. -/
theorem witness_layers :
    halted tiny = false ∧ layerOf tiny.cfg 0 = some .bg ∧ layerOf tiny.cfg 1 = some .mida ∧ layerOf tiny.cfg 2 = some .midb ∧ layerOf tiny.cfg 3 = some .fg
      ∧ layerOf tiny.cfg 4 = none ∧ tiny.cfg.nl ≤ 4 ∧ tiny.cfg.nl ≤ 65535 := by decide

theorem witness_TileWriteMergesAndMarksDirty : halted tiny = false ∧ tiny.cfg.nl ≤ 4 ∧ layerOf tiny.cfg 3 = some .fg := by decide

theorem witness_TileReadReturnsTheWord : halted tiny = false ∧ tiny.cfg.nl ≤ 4 ∧ layerOf tiny.cfg 3 = some .fg := by decide

theorem witness_ScrollTableWritesMerge : halted tiny = false ∧ tiny.cfg.nl ≤ 4 ∧ layerOf tiny.cfg 3 = some .fg := by decide

theorem witness_ScrollTableReadsReturnTheEntry : halted tiny = false ∧ tiny.cfg.nl ≤ 4 ∧ layerOf tiny.cfg 3 = some .fg := by decide

theorem witness_ControlWriteMerges : halted tiny = false ∧ tiny.cfg.ncb ≤ 2 ∧ 1 < tiny.cfg.ncb ∧ 15 < tiny.cfg.cbWords := by decide

theorem witness_OpenBusReadsReturnSomeWord : halted tiny = false ∧ tiny.cfg.ncb ≤ 2 ∧ 1 < tiny.cfg.ncb := by decide

theorem witness_PaletteBank0WriteMerges : halted tiny = false := rfl

theorem witness_PaletteBank1WriteMerges :
    halted tiny = false ∧ tiny.cfg.palFmt = .splitRgB
      ∧ halted { tiny with cfg := { tinyBoard with palFmt := .packedRgbx } } = false
      ∧ { tiny with cfg := { tinyBoard with palFmt := .packedRgbx } }.cfg.palFmt = .packedRgbx := by decide

theorem witness_PaletteReadsReturnTheWord :
    halted tiny = false ∧ tiny.cfg.palFmt = .splitRgB
      ∧ halted { tiny with cfg := { tinyBoard with palFmt := .packedRgbx } } = false
      ∧ { tiny with cfg := { tinyBoard with palFmt := .packedRgbx } }.cfg.palFmt = .packedRgbx := by decide

theorem witness_SpriteRamWritesAndReads : halted tiny = false := rfl

theorem witness_DmaCopiesTheWholeSpriteRam : halted tiny = false ∧ 7 < tiny.cfg.sprRamWords := by decide

theorem witness_PaletteRoundTrip :
    halted tiny = false ∧ tiny.cfg.palFmt = .splitRgB
      ∧ (∀ i ∈ [Instr.hRecompute, .sprWr 0 1 0xFFFF], ∀ o d m, i ≠ .palWr0 o d m ∧ i ≠ .palWr1 o d m)
      ∧ (∃ u, execAll [Instr.hRecompute, .sprWr 0 1 0xFFFF] (respond .silent (writePal0 3 5 0xFFFF tiny)) = .next u
          ∧ halted u = false)
      ∧ ∃ u, execAll [Instr.hRecompute, .sprWr 0 1 0xFFFF] (respond .silent (writePal1 3 5 0xFFFF tiny)) = .next u
          ∧ halted u = false := by
  refine ⟨rfl, rfl, ?_, ⟨_, rfl, rfl⟩, ⟨_, rfl, rfl⟩⟩
  intro i hi o d m
  simp only [List.mem_cons, List.not_mem_nil, or_false] at hi
  rcases hi with rfl | rfl <;> exact ⟨nofun, nofun⟩

theorem witness_ProtectionWriteLooksUpTheKey :
    halted tiny = false
      ∧ prioLookup tiny.cfg.prioTable (merge tiny.platch 0x00F1 0xFFFF) = some { key := 0x00F1, rb := 0x00A5, st := .level1 }
      ∧ prioLookup tiny.cfg.prioTable (merge tiny.platch 0x1234 0xFFFF) = none := by decide

theorem witness_KeyF1SelectsLevel1 :
    boardLegal { tiny with platch := 0x12F1 }.cfg = true ∧ halted { tiny with platch := 0x12F1 } = false
      ∧ merge { tiny with platch := 0x12F1 }.platch 0x0000 0xFF00 = 0x00F1 := by decide

theorem witness_ProtectionReadReturnsTheReadback : halted tiny = false := rfl

/-! ### The renderers, the palette cache and the sequencer -/

theorem witness_ScanIsABijection :
    boardLegal Config.defaultBoard = true ∧ 63 < (Config.defaultBoard.layer .bg).cols ∧ 63 < (Config.defaultBoard.layer .bg).rows
      ∧ 4095 < cellsOf (Config.defaultBoard.layer .bg) := by decide

theorem witness_ScrollMappingFollowsTheMode :
    (tiny.layer .fg).scr.mode = .whole
      ∧ ({ tiny with fg := { LayerState.reset with scr := { mode := .row, sx := 1, sy := 2, gran := 8 } } }.layer .fg).scr.mode
          = .row
      ∧ ({ tiny with fg := { LayerState.reset with scr := { mode := .col, sx := 1, sy := 2, gran := 8 } } }.layer .fg).scr.mode
          = .col
      ∧ { LayerState.reset with coltab := [(0, 1)] }.rowtab = LayerState.reset.rowtab
      ∧ { LayerState.reset with rowtab := [(0, 1)] }.coltab = LayerState.reset.coltab := by decide

theorem witness_UpdateDecodesDirtyCells : halted tiny = false ∧ tiny.cfg.nl ≤ 4 ∧ layerOf tiny.cfg 3 = some .fg ∧ 0 < cellsOf tiny.cfg.fg :=
  by decide

theorem witness_RenderMaterialisesStaleCells :
    boardLegal tiny.cfg = true ∧ halted tiny = false ∧ tiny.cfg.nl ≤ 4 ∧ layerOf tiny.cfg 3 = some .fg ∧ 0 < cellsOf tiny.cfg.fg ∧ 7 < tiny.cfg.fg.cw
      ∧ 7 < tiny.cfg.fg.ch ∧ staleAt (tiny.layer .fg) 0 = true
      ∧ staleAt ({ tiny with fg := { LayerState.reset with stale := [(0, false)] } }.layer .fg) 0 = false := by decide

theorem witness_RenderIsIdempotent :
    boardLegal tiny.cfg = true ∧ exec (.hRender 4) tiny = .next { tiny with fault := some (.badArg .hRender 4) }
      ∧ ∃ t, exec (.hRender 3) tiny = .next t := ⟨test_tiny_board_is_legal, rfl, exec_next tiny _⟩

/-- A pixel each pass draws and one it leaves. -/
theorem witness_DrawBlitsThePass :
    halted tiny = false ∧ tiny.cfg.nl ≤ 4 ∧ layerOf tiny.cfg 0 = some .bg ∧ layerOf tiny.cfg 3 = some .fg ∧ 1 < tiny.cfg.screenW ∧ 0 < tiny.cfg.screenH
      ∧ tiny.cfg.bg.isOpaque = true ∧ tiny.cfg.fg.isOpaque = false ∧ (shownPixel tiny .fg 1 0).pen = tiny.cfg.fg.transPen
      ∧ (shownPixel { tiny with bg := { LayerState.reset with pcache := [(1, { pen := 8, cls := .front, idx := 56 })] } }
          .bg 1 0).cls = .front := by decide

theorem witness_MarkAllDirtyAndSetflip : halted tiny = false ∧ tiny.cfg.nl ≤ 4 ∧ layerOf tiny.cfg 3 = some .fg ∧ 0 < cellsOf tiny.cfg.fg :=
  by decide

theorem witness_LatchscrollResolvesTheScroll :
    halted tiny = false ∧ tiny.cfg.nl ≤ 4 ∧ layerOf tiny.cfg 2 = some .midb ∧ layerOf tiny.cfg 3 = some .fg ∧ tiny.cfg.midb.slot = .a ∧ tiny.cfg.fg.slot = .b := by
  decide

theorem witness_SextReadsTwosComplement : 0 < 1 ∧ 1 ≤ 16 ∧ 0 < 16 ∧ 16 ≤ 16 := by decide

/-- The last of the eight cells of an entry with h = 3. -/
theorem witness_ChainedCellsStack :
    7 < 2 ^ ((snapAt { tiny with snap := [(1, 0x3005)] } (tiny.cfg.sprEntryWords * 0 + 1)).toNat / 4096 % 4) := by decide

theorem witness_ScreenFlipRotatesTheCell : 0 < tinyBoard.sprCell ∧ 15 < tinyBoard.sprCell := by decide

/-- Each edge of the screen, one pixel past it. -/
theorem witness_OffscreenCellWritesNothing :
    (-16 : Int) ≤ -(tinyBoard.sprCell : Int) ∧ (tinyBoard.screenW : Int) ≤ 2 ∧ (tinyBoard.screenH : Int) ≤ 1 := by decide

theorem witness_CellPaintsItsPixels : 1 < tinyBoard.screenW ∧ 0 < tinyBoard.screenH := by decide

theorem witness_SpriteDrawPaintsInWalkOrder : halted tiny = false ∧ 1 < tiny.cfg.screenW ∧ 0 < tiny.cfg.screenH :=
  by decide

/-- Entry 0, used, HIGH, not flashing: drawn under SKIP, under STOP and DESC with the later entry used, under STOP and ASC. -/
theorem witness_PassDrawsItsEntries :
    (tiny.cfg.sprOrder = .desc ∧ tiny.cfg.sprUnusedAction = .skip ∧ 0 ∈ drawnEntries { tiny with snap := [(1, 0x0003), (2, 0x1801)] } .high)
      ∧ ({ tinyBoard with sprUnusedAction := .stop }.sprUnusedAction = .stop ∧ tinyBoard.sprOrder = .desc
          ∧ 0 ∈ drawnEntries
            { tiny with cfg := { tinyBoard with sprUnusedAction := .stop }
                        snap := [(1, 0x0003), (2, 0x1801), (5, 0x0003), (6, 0x1801)] } .high)
      ∧ 0 ∈ drawnEntries
          { tiny with cfg := { tinyBoard with sprUnusedAction := .stop, sprOrder := .asc }
                      snap := [(1, 0x0003), (2, 0x1801)] } .high := by decide

theorem witness_ColourConversion :
    tiny.cfg.palFmt = .splitRgB ∧ { tiny with cfg := { tinyBoard with palFmt := .packedRgbx } }.cfg.palFmt = .packedRgbx := by
  decide

theorem witness_UsedFlagsAreMarkedAndCleared : halted tiny = false ∧ tiny.cfg.palN ≤ 128 ∧ 127 < tiny.cfg.palN :=
  by decide

/-- RECOMPUTE that does not run; that runs and changes a colour; that runs on a changed used flag and changes none. -/
theorem witness_RecomputePublishesUsedColours :
    (halted (work 0) = false ∧ recomputeRuns (work 0) = false)
      ∧ (halted { work 0 with palDirty := true, pub := [] } = false
          ∧ { work 0 with palDirty := true, pub := [] }.palDirty = true
          ∧ usedAt { work 0 with palDirty := true, pub := [] } 0x32 = true
          ∧ pubAt { work 0 with palDirty := true, pub := [] } 0x32 ≠ rgbOf { work 0 with palDirty := true, pub := [] } 0x32)
      ∧ halted { work 0 with usedPrev := [] } = false
      ∧ usedAt { work 0 with usedPrev := [] } 0x32 ≠ usedPrevAt { work 0 with usedPrev := [] } 0x32
      ∧ somePubDiffers { work 0 with usedPrev := [] } = false := by decide

theorem witness_InvalidateMarksEveryCellStale : halted tiny = false ∧ tiny.cfg.nl ≤ 4 ∧ layerOf tiny.cfg 3 = some .fg := by decide

theorem witness_FillAndOutput : halted tiny = false ∧ 1 < tiny.cfg.screenW ∧ 0 < tiny.cfg.screenH := by decide

theorem witness_FrameRenderCompletes : halted tiny = false := rfl

theorem witness_FrameLeavesTheCachesClean :
    boardLegal (work 0).cfg = true ∧ PubCoherent (work 0) ∧ halted (work 0) = false := ⟨work_board 0, work_pub 0, rfl⟩

theorem witness_FrameMarksExactlyTheSampledColours :
    boardLegal (work 0).cfg = true ∧ InfoCoherent (work 0) ∧ halted (work 0) = false ∧ 127 < (work 0).cfg.palN :=
  ⟨work_board 0, work_info 0, rfl, by decide⟩

/-- Both mid orders: TC gives AB at LEVEL0 and BA at LEVEL1. -/
theorem witness_FramefnIsTheChainOfNineDraws :
    prioOrderAt tiny.cfg.prioOrder tiny.pstate = .ab
      ∧ prioOrderAt tiny.cfg.prioOrder { tiny with pstate := .level1 }.pstate = .ba := by decide

theorem witness_FrameIsAFunctionOfTheStorage : Good (work 0) ∧ FlipSync (work 0) ∧ halted (work 0) = false :=
  ⟨⟨work_board 0, work_mem 0, work_info 0, work_cache 0, work_pub 0, work_index 0, work_gran 0, work_silent 0⟩,
    work_flip 0, rfl⟩

/-! ### Faults -/

theorem witness_AbsentInstancesFault :
    halted tiny = false ∧ tiny.cfg.nl ≤ 4 ∧ tiny.cfg.ncb ≤ 2 ∧ tiny.cfg.palN ≤ 128 ∧ boardLegal tiny.cfg = true
      ∧ halted { tiny with cfg := { tinyBoard with palFmt := .packedRgbx } } = false
      ∧ { tiny with cfg := { tinyBoard with palFmt := .packedRgbx } }.cfg.palFmt = .packedRgbx := by decide

/-- Two addresses on different lanes: neighbours, and bytes at separate addresses. -/
theorem witness_ByteWriteChangesOneLane :
    laneAt Config.defaultBoard.laneMap 4 = .high ∧ laneAt Config.defaultBoard.laneMap 5 = .low
      ∧ laneAt Config.defaultBoard.laneMap 5 ≠ laneAt Config.defaultBoard.laneMap 4
      ∧ laneAt splitBoard.laneMap 0x24A5 ≠ laneAt splitBoard.laneMap 0x20A5 := by decide

end Sys2Proof.Tests
end

section
/-!
PROOFS. The scope family: the palette-index and granularity bounds that every step keeps (O14), the control-word write
(O22), and the sprite cell from its sign-extended position to the pixels it leaves (O42-O46).
-/

namespace Sys2Proof.Machine

/-! ## What every transaction of a running block keeps -/

/-- What the effect of a transaction keeps, performing it keeps. -/
theorem exec_keeps_of_transact {P : State → Prop} {i : Instr} {f : State → State} {s t : State}
    (hi : exec i s = transact f s) (h : exec i s = .next t) (hs : P s) (hf : P (f s)) : P t := by
  obtain ⟨-, rfl⟩ | ⟨-, rfl⟩ := transact_next s (hi ▸ h)
  · exact hf
  · exact hs

/-- What a fault and the effect on every layer keep, an operand check of a layer window keeps; so for each other check. -/
theorem withLayerWindow_keeps {P : State → Prop} {region l : Nat} {f : LayerId → State → State} {s : State}
    (hfault : ∀ e, P (raiseFault e s)) (hf : ∀ x, P (f x s)) : P (withLayerWindow region l f s) := by
  unfold withLayerWindow
  split
  · exact hf _
  · exact hfault _

theorem withLayerArg_keeps {P : State → Prop} {op : HarnessOp} {l : Nat} {f : LayerId → State → State} {s : State}
    (hfault : ∀ e, P (raiseFault e s)) (hf : ∀ x, P (f x s)) : P (withLayerArg op l f s) := by
  unfold withLayerArg
  split
  · exact hf _
  · exact hfault _

theorem withBlockWindow_keeps {P : State → Prop} {region b : Nat} {f : State → State} {s : State}
    (hfault : ∀ e, P (raiseFault e s)) (hf : P (f s)) : P (withBlockWindow region b f s) := by
  unfold withBlockWindow
  split
  · exact hf
  · exact hfault _

theorem withBank1_keeps {P : State → Prop} {f : State → State} {s : State} (hfault : ∀ e, P (raiseFault e s))
    (hf : P (f s)) : P (withBank1 f s) := by
  unfold withBank1
  split
  · exact hf
  · exact hfault _

theorem withPaletteArg_keeps {P : State → Prop} {op : HarnessOp} {i : Nat} {f : State → State} {s : State}
    (hfault : ∀ e, P (raiseFault e s)) (hf : P (f s)) : P (withPaletteArg op i f s) := by
  unfold withPaletteArg
  split
  · exact hf
  · exact hfault _

/-! ## Legal boards -/

/-- GRAN_BASE is 0..2 on a legal board (R7, I30). -/
theorem granBase_le_of_legal {c : Cfg} (h : boardLegal c = true) : c.granBase ≤ 2 := by
  simp only [boardLegal, Bool.and_eq_true, decide_eq_true_eq] at h
  obtain ⟨⟨⟨⟨⟨-, hgran⟩, -⟩, -⟩, -⟩, -⟩ := h
  exact hgran

/-- The backdrop of a legal board is a palette index (R7, I30). -/
theorem backdrop_lt_of_legal {c : Cfg} (h : boardLegal c = true) : c.backdrop < c.palN := by
  simp only [boardLegal, Bool.and_eq_true, decide_eq_true_eq] at h
  obtain ⟨⟨⟨⟨-, hbackdrop⟩, -⟩, -⟩, -⟩ := h
  exact hbackdrop

/-! ## The last write of a list -/

@[simp] theorem lastWrite_nil (k c : Nat) : lastWrite [] k c = c := rfl

theorem lastWrite_cons (w : Nat × Nat) (ws : List (Nat × Nat)) (k c : Nat) :
    lastWrite (w :: ws) k c = lastWrite ws k (if w.1 = k then w.2 else c) := rfl

/-- A bound of every written value and of the old one bounds the last write. -/
theorem lastWrite_lt {n k : Nat} {ws : List (Nat × Nat)} {c : Nat} (hw : ∀ w ∈ ws, w.2 < n) (hc : c < n) :
    lastWrite ws k c < n := by
  induction ws generalizing c with
  | nil => exact hc
  | cons w t ih =>
    rw [lastWrite_cons]
    refine ih (fun x hx => hw x (List.mem_cons_of_mem _ hx)) ?_
    split
    · exact hw w List.mem_cons_self
    · exact hc

/-- An index no write names keeps its value. -/
theorem lastWrite_of_forall_notMem {k : Nat} {ws : List (Nat × Nat)} (c : Nat) (h : ∀ v, (k, v) ∉ ws) :
    lastWrite ws k c = c := by
  induction ws with
  | nil => rfl
  | cons w t ih =>
    have hw : w.1 ≠ k := fun hk => h w.2 (hk ▸ List.mem_cons_self)
    rw [lastWrite_cons, if_neg hw]
    exact ih fun v hv => h v (List.mem_cons_of_mem _ hv)

/-- An index that some write names, every one with the same value, takes that value. -/
theorem lastWrite_of_mem {k v : Nat} {ws : List (Nat × Nat)} (c : Nat) (hmem : (k, v) ∈ ws)
    (hv : ∀ v', (k, v') ∈ ws → v' = v) : lastWrite ws k c = v := by
  induction ws generalizing c with
  | nil => simp at hmem
  | cons w t ih =>
    have ht : ∀ v', (k, v') ∈ t → v' = v := fun v' hx => hv v' (List.mem_cons_of_mem _ hx)
    rw [lastWrite_cons]
    by_cases hlater : (k, v) ∈ t
    · exact ih _ hlater ht
    · obtain rfl | hlater' := List.mem_cons.mp hmem
      · rw [if_pos rfl]
        exact lastWrite_of_forall_notMem v fun v' hx => hlater (ht v' hx ▸ hx)
      · exact absurd hlater' hlater

/-! ## The writes of a sprite cell -/

/-- Two screen positions with one index are one position. -/
theorem screenKey_inj {c : Cfg} {x y x' y' : Nat} (hx : x < c.screenW) (hx' : x' < c.screenW)
    (h : screenKey c x y = screenKey c x' y') : x = x' ∧ y = y' := by
  obtain ⟨hm, hd⟩ := screenKey_mod_div (y := y) hx
  obtain ⟨hm', hd'⟩ := screenKey_mod_div (y := y') hx'
  rw [h] at hm hd
  exact ⟨hm.symm.trans hm', hd.symm.trans hd'⟩

theorem spriteIndex_lt {c : Cfg} (h : 0 < c.palN) (color : BitVec 4) (pen : Nat) : spriteIndex c color pen < c.palN :=
  Nat.mod_lt _ h

theorem onScreen_iff {c : Cfg} {x y : Int} :
    onScreen c x y = true ↔ (0 ≤ x ∧ x < (c.screenW : Int)) ∧ 0 ≤ y ∧ y < (c.screenH : Int) := by
  simp [onScreen, and_assoc]

@[simp] theorem mem_cellPixels {c : Cfg} {p : Nat × Nat} :
    p ∈ cellPixels c ↔ p.1 < c.sprCell ∧ p.2 < c.sprCell := by
  obtain ⟨px, py⟩ := p
  simp [cellPixels, and_comm]

/-- A pixel writes where its pen is not transparent and its position lies on the screen (R317, R318). -/
theorem pixelWrite_eq_some {c : Cfg} {q : SprCell} {px py : Nat} {w : Nat × Nat} :
    pixelWrite c q px py = some w ↔
      (cellPen c q px py ≠ c.sprTransPen ∧ onScreen c (q.cx + (px : Int)) (q.cy + (py : Int)) = true)
        ∧ (screenKey c (q.cx + (px : Int)).toNat (q.cy + (py : Int)).toNat,
            spriteIndex c q.color (cellPen c q px py).toNat) = w := by
  simp only [pixelWrite, Option.ite_none_right_eq_some, Option.some.injEq]

/-- The writes of a cell are those of its non-transparent pixels on the screen (R317-R319). -/
theorem mem_cellWrites {c : Cfg} {q : SprCell} {w : Nat × Nat} :
    w ∈ cellWrites c q ↔ ∃ px py, px < c.sprCell ∧ py < c.sprCell ∧ pixelWrite c q px py = some w := by
  simp [cellWrites, List.mem_filterMap, and_assoc]

/-- The one write of a cell at a screen pixel: that of the cell's own pixel there, if its pen is not transparent. -/
theorem mem_cellWrites_screenKey {c : Cfg} {q : SprCell} {X Y v : Nat} (hX : X < c.screenW) (hY : Y < c.screenH) :
    (screenKey c X Y, v) ∈ cellWrites c q ↔
      (0 ≤ (X : Int) - q.cx ∧ (X : Int) - q.cx < (c.sprCell : Int)
          ∧ 0 ≤ (Y : Int) - q.cy ∧ (Y : Int) - q.cy < (c.sprCell : Int)
          ∧ cellPen c q ((X : Int) - q.cx).toNat ((Y : Int) - q.cy).toNat ≠ c.sprTransPen)
        ∧ spriteIndex c q.color (cellPen c q ((X : Int) - q.cx).toNat ((Y : Int) - q.cy).toNat).toNat = v := by
  simp only [mem_cellWrites, pixelWrite_eq_some, onScreen_iff, Prod.mk.injEq]
  constructor
  · rintro ⟨px, py, hpx, hpy, ⟨hpen, ⟨hx0, hxW⟩, hy0, hyH⟩, hkey, hv⟩
    obtain ⟨hx, hy⟩ := screenKey_inj (by omega) hX hkey
    have epx : ((X : Int) - q.cx).toNat = px := by omega
    have epy : ((Y : Int) - q.cy).toNat = py := by omega
    rw [epx, epy]
    exact ⟨⟨by omega, by omega, by omega, by omega, hpen⟩, hv⟩
  · rintro ⟨⟨hx0, hx, hy0, hy, hpen⟩, hv⟩
    have eX : q.cx + (((X : Int) - q.cx).toNat : Int) = X := by omega
    have eY : q.cy + (((Y : Int) - q.cy).toNat : Int) = Y := by omega
    refine ⟨((X : Int) - q.cx).toNat, ((Y : Int) - q.cy).toNat, by omega, by omega, ⟨hpen, by omega⟩, ?_, hv⟩
    rw [eX, eY, Int.toNat_natCast, Int.toNat_natCast]

/-- What a cell leaves at a screen pixel: the index of its own pixel there, unless transparent (R317-R319). -/
theorem lastWrite_cellWrites {c : Cfg} (q : SprCell) {X Y : Nat} (old : Nat) (hX : X < c.screenW) (hY : Y < c.screenH) :
    lastWrite (cellWrites c q) (screenKey c X Y) old
      = if 0 ≤ (X : Int) - q.cx ∧ (X : Int) - q.cx < (c.sprCell : Int)
          ∧ 0 ≤ (Y : Int) - q.cy ∧ (Y : Int) - q.cy < (c.sprCell : Int)
          ∧ cellPen c q ((X : Int) - q.cx).toNat ((Y : Int) - q.cy).toNat ≠ c.sprTransPen
        then spriteIndex c q.color (cellPen c q ((X : Int) - q.cx).toNat ((Y : Int) - q.cy).toNat).toNat else old := by
  have hmem := fun v => mem_cellWrites_screenKey (q := q) (v := v) hX hY
  split
  case isTrue h => exact lastWrite_of_mem old ((hmem _).mpr ⟨h, rfl⟩) fun v hv => ((hmem v).mp hv).2.symm
  case isFalse h => exact lastWrite_of_forall_notMem old fun v hv => h ((hmem v).mp hv).1

/-- Every write of SPRDRAW is a palette index (R308). -/
theorem spriteWrites_snd_lt {s : State} (h : 0 < s.cfg.palN) {flip : Bool} {pass : SprPass} {w : Nat × Nat}
    (hw : w ∈ spriteWrites s flip pass) : w.2 < s.cfg.palN := by
  simp only [spriteWrites, List.mem_flatMap, mem_cellWrites, pixelWrite_eq_some] at hw
  obtain ⟨e, -, q, -, px, py, -, -, -, rfl⟩ := hw
  exact spriteIndex_lt h _ _

/-! ## The bounds of palette indices and granularities -/

/-- A layer's pixel cache holds palette indices (R14), and its latched granularity lies in 1..2^9 (R40). -/
def LayerBounded (c : Cfg) (x : LayerState) : Prop :=
  (∀ k, (Store.read unlistedPixel x.pcache k).idx < c.palN) ∧ 0 < x.scr.gran ∧ x.scr.gran ≤ 2 ^ 9

/-- The bounds on a legal board, layer by layer: what every transaction keeps. -/
structure Bounded (s : State) : Prop where
  board : boardLegal s.cfg = true
  comp : ∀ k, Store.read unlistedIndex s.comp k < s.cfg.palN
  layers : ∀ l, LayerBounded s.cfg (s.layer l)

theorem bounded_iff {s : State} : Bounded s ↔ boardLegal s.cfg = true ∧ IndexBounded s ∧ GranBounded s := by
  constructor
  · rintro ⟨hboard, hcomp, hlayers⟩
    exact ⟨hboard, ⟨hcomp, fun l => (hlayers l).1⟩, fun l => (hlayers l).2⟩
  · rintro ⟨hboard, ⟨hcomp, hpcache⟩, hgran⟩
    exact ⟨hboard, hcomp, fun l => ⟨hpcache l, hgran l⟩⟩

namespace Bounded

variable {s t : State}

protected theorem palN_pos (h : Bounded s) : 0 < s.cfg.palN := palN_pos_of_legal h.board

/-- The bounds speak of the board, COMP and the layers only. -/
protected theorem congr (h : Bounded s) (hcfg : t.cfg = s.cfg) (hcomp : t.comp = s.comp)
    (hlayer : ∀ l, t.layer l = s.layer l) :
    Bounded t where
  board := hcfg ▸ h.board
  comp := by rw [hcfg, hcomp]; exact h.comp
  layers l := by rw [hcfg, hlayer l]; exact h.layers l

protected theorem setLayer (h : Bounded s) (l : LayerId) {x : LayerState} (hx : LayerBounded s.cfg x) :
    Bounded (s.setLayer l x) where
  board := h.board
  comp := h.comp
  layers k := by
    rw [State.layer_setLayer]
    split
    · exact hx
    · exact h.layers k

/-- A layer update that leaves PCACHE and SCR leaves the bounds. -/
protected theorem setLayer_frame (h : Bounded s) (l : LayerId) {x : LayerState}
    (hpcache : x.pcache = (s.layer l).pcache) (hscr : x.scr = (s.layer l).scr) : Bounded (s.setLayer l x) := by
  refine h.setLayer l ?_
  unfold LayerBounded
  rw [hpcache, hscr]
  exact h.layers l

protected theorem setComp (h : Bounded s) {m : Store Nat} (hm : ∀ k, Store.read unlistedIndex m k < s.cfg.palN) :
    Bounded { s with comp := m } where
  board := h.board
  comp := hm
  layers := h.layers

/-- A composite buffer tabulated from palette indices holds palette indices: so does an unlisted pixel. -/
protected theorem setComp_tabulate (h : Bounded s) (n : Nat) {f : Nat → Nat} (hf : ∀ k, f k < s.cfg.palN) :
    Bounded { s with comp := Store.tabulate unlistedIndex n f } := by
  refine h.setComp fun k => ?_
  rw [Store.read_tabulate]
  split
  · exact hf k
  · exact h.palN_pos

/-! ### Updates that leave the board, COMP, PCACHE and SCR -/

protected theorem respond (h : Bounded s) (r : Response) : Bounded (respond r s) := h.congr rfl rfl fun _ => rfl

protected theorem returnData (h : Bounded s) (v : Word) : Bounded (returnData v s) := h.respond _

protected theorem returnDraw (h : Bounded s) : Bounded (returnDraw s) := h.congr rfl rfl fun _ => rfl

protected theorem raiseFault (h : Bounded s) (e : Fault) : Bounded (raiseFault e s) := h.congr rfl rfl fun _ => rfl

protected theorem refuseWord (h : Bounded s) : Bounded (refuseWord s) := h.congr rfl rfl fun _ => rfl

protected theorem setPort (h : Bounded s) (rest : List Txn) : Bounded { s with port := rest } :=
  h.congr rfl rfl fun _ => rfl

protected theorem writeTile (h : Bounded s) (l : LayerId) (o : Nat) (data mask : Word) :
    Bounded (writeTile l o data mask s) :=
  h.setLayer_frame l rfl rfl

protected theorem writeRowtab (h : Bounded s) (l : LayerId) (e : Nat) (data mask : Word) :
    Bounded (writeRowtab l e data mask s) := h.setLayer_frame l rfl rfl

protected theorem writeColtab (h : Bounded s) (l : LayerId) (e : Nat) (data mask : Word) :
    Bounded (writeColtab l e data mask s) := h.setLayer_frame l rfl rfl

protected theorem writeCr (h : Bounded s) (b w : Nat) (data mask : Word) : Bounded (writeCr b w data mask s) :=
  h.congr rfl rfl fun _ => rfl

protected theorem writePal0 (h : Bounded s) (i : Nat) (data mask : Word) : Bounded (writePal0 i data mask s) :=
  h.congr rfl rfl fun _ => rfl

protected theorem writePal1 (h : Bounded s) (i : Nat) (data mask : Word) : Bounded (writePal1 i data mask s) :=
  h.congr rfl rfl fun _ => rfl

protected theorem writeSprram (h : Bounded s) (w : Nat) (data mask : Word) : Bounded (writeSprram w data mask s) :=
  h.congr rfl rfl fun _ => rfl

protected theorem copySnapshot (h : Bounded s) : Bounded (copySnapshot s) := h.congr rfl rfl fun _ => rfl

protected theorem presentKey (h : Bounded s) (key : Word) : Bounded (presentKey key s) := h.congr rfl rfl fun _ => rfl

protected theorem markUsed (h : Bounded s) (i : Nat) : Bounded (markUsed i s) := h.congr rfl rfl fun _ => rfl

protected theorem clearUsed (h : Bounded s) : Bounded (clearUsed s) := h.congr rfl rfl fun _ => rfl

protected theorem accumulate (h : Bounded s) : Bounded (accumulate s) := h.congr rfl rfl fun _ => rfl

protected theorem recompute (h : Bounded s) : Bounded (recompute s) := by
  unfold recompute
  split
  · exact h.congr rfl rfl fun _ => rfl
  · exact h

protected theorem stepOutput (h : Bounded s) : Bounded (stepOutput s) := h.congr rfl rfl fun _ => rfl

protected theorem countFrame (h : Bounded s) : Bounded (countFrame s) := h.congr rfl rfl fun _ => rfl

protected theorem updateLayer (h : Bounded s) (l : LayerId) : Bounded (updateLayer l s) := h.setLayer_frame l rfl rfl

protected theorem markAllDirty (h : Bounded s) (l : LayerId) : Bounded (markAllDirty l s) := h.setLayer_frame l rfl rfl

protected theorem setFlip (h : Bounded s) (l : LayerId) (f : Bool) : Bounded (setFlip l f s) :=
  (h.setLayer_frame (x := { s.layer l with flip := f }) l rfl rfl).markAllDirty l

protected theorem invalidate (h : Bounded s) (l : LayerId) : Bounded (invalidate l s) := h.setLayer_frame l rfl rfl

/-! ### Updates of PCACHE, SCR and COMP -/

/-- A rendered pixel is a fresh index reduced modulo PAL_N or the cached one (R212, R229). -/
protected theorem renderedPixel_idx_lt (h : Bounded s) (l : LayerId) (lx ly : Nat) :
    (renderedPixel s.cfg (s.cfg.layer l) (s.layer l) lx ly).idx < s.cfg.palN := by
  unfold renderedPixel
  split
  · exact Nat.mod_lt _ h.palN_pos
  · exact (h.layers l).1 _

protected theorem renderLayer (h : Bounded s) (l : LayerId) : Bounded (renderLayer l s) := by
  refine h.setLayer l ⟨fun k => ?_, (h.layers l).2⟩
  rw [Store.read_tabulate]
  split
  · exact h.renderedPixel_idx_lt l _ _
  · exact h.palN_pos

/-- A granularity exponent is a 3-bit field plus GRAN_BASE <= 2 (R44, R219). -/
protected theorem resolveScroll_gran (h : Bounded s) (l : LayerId) :
    0 < (resolveScroll l s).gran ∧ (resolveScroll l s).gran ≤ 2 ^ 9 := by
  have hbase : s.cfg.granBase ≤ 2 := granBase_le_of_legal h.board
  refine ⟨Nat.two_pow_pos _, Nat.pow_le_pow_right (by decide) ?_⟩
  have hfield : ∀ m : Word, field m 2 3 < 2 ^ 3 := fun m => (m.extractLsb' 2 3).isLt
  exact Nat.add_le_add (Nat.le_of_lt_succ (hfield _)) hbase

protected theorem latchScroll (h : Bounded s) (l : LayerId) : Bounded (latchScroll l s) :=
  h.setLayer l ⟨(h.layers l).1, h.resolveScroll_gran l⟩

protected theorem drawLayer (h : Bounded s) (l : LayerId) (pass : LayerPass) : Bounded (drawLayer l pass s) := by
  refine h.setComp_tabulate _ fun k => ?_
  dsimp only
  split
  · exact (h.layers l).1 _
  · exact h.comp _

protected theorem fillBackdrop (h : Bounded s) : Bounded (fillBackdrop s) :=
  h.setComp_tabulate _ fun _ => backdrop_lt_of_legal h.board

protected theorem drawSprites (h : Bounded s) (pass : SprPass) : Bounded (drawSprites pass s) := by
  refine h.setComp fun k => ?_
  rw [Store.read_writeAll]
  exact lastWrite_lt (fun _ hw => spriteWrites_snd_lt h.palN_pos hw) (h.comp k)

/-! ### The frame -/

protected theorem forLayers (h : Bounded s) {f : LayerId → State → State}
    (hf : ∀ l t, Bounded t → Bounded (f l t)) : Bounded (forLayers f s) :=
  forLayers_induct s f h hf

protected theorem stepFlip (h : Bounded s) : Bounded (stepFlip s) := by
  unfold stepFlip
  split
  · exact h
  · have hflip := h.forLayers fun l t ht => ht.setFlip l (flipBit s)
    exact hflip.congr rfl rfl fun _ => rfl

protected theorem stepPalette (h : Bounded s) : Bounded (stepPalette s) := by
  unfold stepPalette
  split
  · exact (h.recompute.forLayers fun l _ ht => ht.invalidate l).forLayers fun l _ ht => ht.renderLayer l
  · exact h.recompute

protected theorem runPass (h : Bounded s) (p : FramePass) : Bounded (runPass p s) := by
  cases p with
  | layer l pass => exact h.drawLayer l pass
  | sprites pass => exact h.drawSprites pass

protected theorem runPasses (h : Bounded s) (ps : List FramePass) :
    Bounded (ps.foldl (fun acc p => runPass p acc) s) := by
  induction ps generalizing s with
  | nil => exact h
  | cons p t ih => exact ih (h.runPass p)

protected theorem renderFrame (h : Bounded s) : Bounded (renderFrame s) := by
  have hscroll : Bounded (stepScroll (stepFlip s)) := h.stepFlip.forLayers fun l _ ht => ht.latchScroll l
  have hupdate : Bounded (stepUpdate (stepScroll (stepFlip s))) :=
    hscroll.forLayers fun l _ ht => (ht.updateLayer l).renderLayer l
  have hpalette := hupdate.clearUsed.accumulate.stepPalette
  exact (hpalette.fillBackdrop.runPasses _).stepOutput.countFrame

/-! ### Every transaction, every step -/

/-- Every transaction keeps the bounds. -/
protected theorem exec (h : Bounded s) {i : Instr} (hi : exec i s = .next t) : Bounded t := by
  cases i with
  | tileWr l off data mask =>
    exact exec_keeps_of_transact (exec_tileWr ..) hi h
      (withLayerWindow_keeps h.raiseFault fun x => (h.writeTile x _ data mask).respond _)
  | tileRd l off =>
    exact exec_keeps_of_transact (exec_tileRd ..) hi h (withLayerWindow_keeps h.raiseFault fun _ => h.returnData _)
  | rscrWr l off data mask =>
    exact exec_keeps_of_transact (exec_rscrWr ..) hi h
      (withLayerWindow_keeps h.raiseFault fun x => (h.writeRowtab x _ data mask).respond _)
  | rscrRd l off =>
    exact exec_keeps_of_transact (exec_rscrRd ..) hi h (withLayerWindow_keeps h.raiseFault fun _ => h.returnData _)
  | cscrWr l off data mask =>
    exact exec_keeps_of_transact (exec_cscrWr ..) hi h
      (withLayerWindow_keeps h.raiseFault fun x => (h.writeColtab x _ data mask).respond _)
  | cscrRd l off =>
    exact exec_keeps_of_transact (exec_cscrRd ..) hi h (withLayerWindow_keeps h.raiseFault fun _ => h.returnData _)
  | ctrlWr b off data mask =>
    exact exec_keeps_of_transact (exec_ctrlWr ..) hi h
      (withBlockWindow_keeps h.raiseFault ((h.writeCr b _ data mask).respond _))
  | ctrlRd b off => exact exec_keeps_of_transact (exec_ctrlRd ..) hi h (withBlockWindow_keeps h.raiseFault h.returnDraw)
  | palWr0 off data mask => exact exec_keeps_of_transact (exec_palWr0 ..) hi h ((h.writePal0 _ data mask).respond _)
  | palRd0 off => exact exec_keeps_of_transact (exec_palRd0 ..) hi h (h.returnData _)
  | palWr1 off data mask =>
    exact exec_keeps_of_transact (exec_palWr1 ..) hi h
      (withBank1_keeps h.raiseFault ((h.writePal1 _ data mask).respond _))
  | palRd1 off => exact exec_keeps_of_transact (exec_palRd1 ..) hi h (withBank1_keeps h.raiseFault (h.returnData _))
  | sprWr off data mask => exact exec_keeps_of_transact (exec_sprWr ..) hi h ((h.writeSprram _ data mask).respond _)
  | sprRd off => exact exec_keeps_of_transact (exec_sprRd ..) hi h (h.returnData _)
  | dmaWr => exact exec_keeps_of_transact (exec_dmaWr ..) hi h (h.copySnapshot.respond _)
  | dmaRd => exact exec_keeps_of_transact (exec_dmaRd ..) hi h h.returnDraw
  | protWr data mask => exact exec_keeps_of_transact (exec_protWr ..) hi h ((h.presentKey _).respond _)
  | protRd => exact exec_keeps_of_transact (exec_protRd ..) hi h (h.returnData _)
  | frameRender => exact exec_keeps_of_transact (exec_frameRender ..) hi h (h.renderFrame.respond _)
  | hUpdate l =>
    exact exec_keeps_of_transact (exec_hUpdate ..) hi h
      (withLayerArg_keeps h.raiseFault fun x => (h.updateLayer x).respond _)
  | hRender l =>
    exact exec_keeps_of_transact (exec_hRender ..) hi h
      (withLayerArg_keeps h.raiseFault fun x => (h.renderLayer x).respond _)
  | hDraw l pass =>
    exact exec_keeps_of_transact (exec_hDraw ..) hi h
      (withLayerArg_keeps h.raiseFault fun x => (h.drawLayer x pass).respond _)
  | hSprdraw pass => exact exec_keeps_of_transact (exec_hSprdraw ..) hi h ((h.drawSprites pass).respond _)
  | hMarkused n =>
    exact exec_keeps_of_transact (exec_hMarkused ..) hi h (withPaletteArg_keeps h.raiseFault ((h.markUsed n).respond _))
  | hRecompute => exact exec_keeps_of_transact (exec_hRecompute ..) hi h (h.recompute.returnData _)
  | hSetflip l f =>
    exact exec_keeps_of_transact (exec_hSetflip ..) hi h
      (withLayerArg_keeps h.raiseFault fun x => (h.setFlip x f).respond _)
  | hMarkalldirty l =>
    exact exec_keeps_of_transact (exec_hMarkalldirty ..) hi h
      (withLayerArg_keeps h.raiseFault fun x => (h.markAllDirty x).respond _)
  | hLatchscroll l =>
    exact exec_keeps_of_transact (exec_hLatchscroll ..) hi h
      (withLayerArg_keeps h.raiseFault fun x => (h.latchScroll x).respond _)
  | hClearused => exact exec_keeps_of_transact (exec_hClearused ..) hi h (h.clearUsed.respond _)
  | hInvalidate l =>
    exact exec_keeps_of_transact (exec_hInvalidate ..) hi h
      (withLayerArg_keeps h.raiseFault fun x => (h.invalidate x).respond _)
  | hFill => exact exec_keeps_of_transact (exec_hFill ..) hi h (h.fillBackdrop.respond _)
  | hOutput => exact exec_keeps_of_transact (exec_hOutput ..) hi h (h.stepOutput.respond _)

end Bounded

/-- Settles O14: a step idles, refuses its word or performs a transaction on a legal board, and each keeps `Bounded`. -/
theorem stepKeepsIndexBounds : Obligations.StepKeepsIndexBounds := by
  intro s t hindex hgran hstep
  obtain rfl | ⟨w, rest, -, hboard, -, hperform⟩ := step_next s hstep
  · exact ⟨hindex, hgran⟩
  · have h : Bounded { s with port := rest } := (bounded_iff.mpr ⟨hboard, hindex, hgran⟩).setPort rest
    have ht : Bounded t := by
      obtain ⟨r, -, rfl⟩ | ⟨i, -, hexec⟩ := hperform
      · exact h.refuseWord
      · exact h.exec hexec
    exact (bounded_iff.mp ht).2

/-! ## The control words -/

/-- Two control words with one index are one word of one block. -/
theorem crKey_inj_iff {c : Cfg} {b w b' w' : Nat} (hw : w < c.cbWords) (hw' : w' < c.cbWords) :
    crKey c b w = crKey c b' w' ↔ b = b' ∧ w = w' := by
  have hpos : 0 < c.cbWords := Nat.zero_lt_of_lt hw
  constructor
  · intro h
    unfold crKey at h
    have hdiv := congrArg (· / c.cbWords) h
    have hmod := congrArg (· % c.cbWords) h
    simp only [Nat.mul_add_div hpos, Nat.div_eq_of_lt hw, Nat.div_eq_of_lt hw', Nat.add_zero] at hdiv
    simp only [Nat.mul_add_mod, Nat.mod_eq_of_lt hw, Nat.mod_eq_of_lt hw'] at hmod
    exact ⟨hdiv, hmod⟩
  · rintro ⟨rfl, rfl⟩
    rfl

/-- Settles O22: the merged word goes to the one index that names it. -/
theorem controlWriteMerges : Obligations.ControlWriteMerges := by
  intro s b off data mask hrun
  rw [exec_ctrlWr, transact_running s _ hrun]
  refine ⟨fun hb => by rw [withBlockWindow_ge s _ hb]; rfl, fun hb => ?_⟩
  obtain ⟨hread, -⟩ := writeCr_spec s b (off % s.cfg.cbWords) data mask
  rw [withBlockWindow_lt s _ hb]
  refine ⟨_, rfl, fun c w hw => ?_, rfl, rfl⟩
  have hfold : off % s.cfg.cbWords < s.cfg.cbWords := Nat.mod_lt _ (Nat.zero_lt_of_lt hw)
  simp only [← crKey_inj_iff hw hfold]
  exact hread (crKey s.cfg c w)

/-! ## A sprite cell -/

/-- Flipping both the coordinate and the flip gives the same graphics coordinate (R311, R312). -/
theorem flipIn_not (flip : Bool) {side p : Nat} (hp : p < side) :
    flipIn (!flip) side (side - 1 - p) = flipIn flip side p := by
  cases flip
  · simp only [flipIn, Bool.not_false, if_true]
    rw [if_neg Bool.false_ne_true]
    omega
  · rfl

/-- Settles O44: the flipped cell's corner is the rotated corner less the cell's side, and its flips undo the
rotation of the pixel inside the cell. -/
theorem screenFlipRotatesTheCell : Obligations.ScreenFlipRotatesTheCell := by
  intro c q px py hpx hpy
  simp only [flipCell, if_true]
  refine ⟨by omega, by omega, ?_⟩
  simp only [cellPen, flipIn_not _ hpx, flipIn_not _ hpy]

/-- Settles O45: no pixel of the cell has a position on the screen. -/
theorem offscreenCellWritesNothing : Obligations.OffscreenCellWritesNothing := by
  intro c q hoff
  refine List.eq_nil_iff_forall_not_mem.mpr fun w hw => ?_
  obtain ⟨px, py, hpx, hpy, hsome⟩ := mem_cellWrites.mp hw
  obtain ⟨⟨-, hon⟩, -⟩ := pixelWrite_eq_some.mp hsome
  obtain ⟨hx, hy⟩ := onScreen_iff.mp hon
  omega

/-- Settles O46: at most one pixel of the cell lies at (X, Y), so every write there has that pixel's value. -/
theorem cellPaintsItsPixels : Obligations.CellPaintsItsPixels :=
  fun _ q _ _ old hX hY => lastWrite_cellWrites q old hX hY

/-! ## A sprite entry -/

/-- Settles O42: the low bits as a number, less 2^n when their top bit, bit n-1 of the word, is 1. -/
theorem sextReadsTwosComplement : Obligations.SextReadsTwosComplement := by
  intro n v hpos hn
  have hmsb : (v.extractLsb' 0 n).msb = v.getLsbD (n - 1) := by
    rw [BitVec.msb_eq_getLsbD_last, BitVec.getLsbD_extractLsb']
    simp [hpos]
  rw [sext, BitVec.toInt_eq_msb_cond, hmsb, BitVec.extractLsb'_toNat, Nat.shiftRight_zero]
  split <;> push_cast <;> omega

/-- A field as a number (R10). -/
theorem field_eq (v : Word) (lo width : Nat) : field v lo width = v.toNat / 2 ^ lo % 2 ^ width := by
  rw [field, BitVec.extractLsb'_toNat, Nat.shiftRight_eq_div_pow]

@[simp] theorem entryTile_toNat (s : State) (e : Nat) : (entryTile s e).toNat = (entryWord s e 1).toNat % 4096 := by
  have h : (entryTile s e).toNat = _ := field_eq (entryWord s e 1) 0 12
  omega

@[simp] theorem entryColor_toNat (s : State) (e : Nat) : (entryColor s e).toNat = (entryWord s e 2).toNat / 4096 := by
  have hlt := (entryWord s e 2).isLt
  have h : (entryColor s e).toNat = _ := field_eq (entryWord s e 2) 12 4
  omega

theorem entryCells_eq (s : State) (e : Nat) : entryCells s e = 2 ^ ((entryWord s e 1).toNat / 4096 % 4) :=
  congrArg (2 ^ ·) (field_eq (entryWord s e 1) 12 2)

@[simp] theorem length_spriteCells (s : State) (flip : Bool) (e : Nat) :
    (spriteCells s flip e).length = entryCells s e := by
  simp [spriteCells]

theorem spriteCells_getElem? (s : State) (flip : Bool) {e k : Nat} (hk : k < entryCells s e) :
    (spriteCells s flip e)[k]? = some (spriteCell s flip e k) := by
  simp [spriteCells, hk]

/-- The screen flip of a cell, part by part (R311). -/
theorem flipCell_spec (c : Cfg) (flip : Bool) (q : SprCell) :
    (flipCell c flip q).code = q.code
      ∧ (flipCell c flip q).cx = (if flip = true then (c.screenW : Int) - (c.sprCell : Int) - q.cx else q.cx)
      ∧ (flipCell c flip q).cy = (if flip = true then (c.screenH : Int) - (c.sprCell : Int) - q.cy else q.cy)
      ∧ (flipCell c flip q).fx = (if flip = true then !q.fx else q.fx)
      ∧ (flipCell c flip q).fy = (if flip = true then !q.fy else q.fy)
      ∧ (flipCell c flip q).color = q.color := by
  cases flip
  · exact ⟨rfl, rfl, rfl, rfl, rfl, rfl⟩
  · exact ⟨rfl, rfl, rfl, rfl, rfl, rfl⟩

theorem reflectY_eq (m : YReflect) (y : Int) : reflectY m y = if m = .reflect240 then 240 - y else y := by
  cases m
  · rfl
  · rfl

/-- Settles O43: the list is tabulated in chain order, and the screen flip comes last. -/
theorem chainedCellsStack : Obligations.ChainedCellsStack := by
  intro s flip e
  refine ⟨(length_spriteCells s flip e).trans (entryCells_eq s e), fun k hk => ?_⟩
  have hcells : k < entryCells s e := (entryCells_eq s e).symm ▸ hk
  obtain ⟨hcode, hcx, hcy, hfx, hfy, hcolor⟩ := flipCell_spec s.cfg flip
    { code := ((entryTile s e).toNat + k) % 4096, cx := entryX s e
      cy := reflectY s.cfg.sprYReflect (chainY s.cfg.sprCell (entryFlipY s e) (entryY s e) k)
      fx := entryFlipX s e, fy := entryFlipY s e, color := entryColor s e }
  refine ⟨spriteCells_getElem? s flip hcells, ?_, hcx, ?_, hfx, hfy, ?_⟩
  · exact hcode.trans (by rw [entryTile_toNat]; rfl)
  · exact hcy.trans (by rw [reflectY_eq]; rfl)
  · exact (congrArg BitVec.toNat hcolor).trans (entryColor_toNat s e)

end Sys2Proof.Machine
end

section
/-!
PROOFS. The memory family: what every step keeps of the arrays' canonical form (O11), of the board (O7) and of the
storage (O17), the one transaction of a step (O5), and the byte lane a CPU byte write changes (O60).
-/

namespace Sys2Proof.Machine

/-! ## What a transaction can do -/

/-- The micro-operations: each harness action (R121, R122) at an argument its check lets through, and the used-colour
accumulation that a frame alone performs (R271). -/
inductive MicroOp (s : State) : State → Prop
  | update (l : LayerId) : MicroOp s (updateLayer l s)
  | render (l : LayerId) : MicroOp s (renderLayer l s)
  | draw (l : LayerId) (pass : LayerPass) : MicroOp s (drawLayer l pass s)
  | sprdraw (pass : SprPass) : MicroOp s (drawSprites pass s)
  | markused {i : Nat} (hi : i < s.cfg.palN) : MicroOp s (markUsed i s)
  | recompute : MicroOp s (recompute s)
  | setflip (l : LayerId) (f : Bool) : MicroOp s (setFlip l f s)
  | markalldirty (l : LayerId) : MicroOp s (markAllDirty l s)
  | latchscroll (l : LayerId) : MicroOp s (latchScroll l s)
  | clearused : MicroOp s (clearUsed s)
  | accumulate : MicroOp s (accumulate s)
  | invalidate (l : LayerId) : MicroOp s (invalidate l s)
  | fill : MicroOp s (fillBackdrop s)
  | output : MicroOp s (stepOutput s)

/-- What a transaction can make of a state: nothing (a halted block), a fault, an answer alone, one micro-operation, its
own write with the folded offset (R82), or a frame. -/
inductive Effect (s : State) : Instr → State → Prop
  | idle (i : Instr) : Effect s i s
  | fault (i : Instr) (e : Fault) : Effect s i (raiseFault e s)
  | data (i : Instr) (v : Word) : Effect s i (returnData v s)
  | openBus (i : Instr) : Effect s i (returnDraw s)
  | micro (i : Instr) (r : Response) {u : State} (hu : MicroOp s u) : Effect s i (respond r u)
  | tile (l off : Nat) (data mask : Word) (x : LayerId) :
      Effect s (.tileWr l off data mask) (respond .silent (writeTile x (fold off (cellsOf (s.cfg.layer x))) data mask s))
  | rowtab (l off : Nat) (data mask : Word) (x : LayerId) :
      Effect s (.rscrWr l off data mask) (respond .silent (writeRowtab x (fold off s.cfg.rowTabN) data mask s))
  | coltab (l off : Nat) (data mask : Word) (x : LayerId) :
      Effect s (.cscrWr l off data mask) (respond .silent (writeColtab x (fold off s.cfg.colTabN) data mask s))
  | cr {b : Nat} (off : Nat) (data mask : Word) (hb : b < s.cfg.ncb) :
      Effect s (.ctrlWr b off data mask) (respond .silent (writeCr b (fold off s.cfg.cbWords) data mask s))
  | pal0 (off : Nat) (data mask : Word) :
      Effect s (.palWr0 off data mask) (respond .silent (writePal0 (fold off s.cfg.palN) data mask s))
  | pal1 (off : Nat) (data mask : Word) :
      Effect s (.palWr1 off data mask) (respond .silent (writePal1 (fold off s.cfg.palN) data mask s))
  | sprram (off : Nat) (data mask : Word) :
      Effect s (.sprWr off data mask) (respond .silent (writeSprram (fold off s.cfg.sprRamWords) data mask s))
  | snap : Effect s .dmaWr (respond .silent (copySnapshot s))
  | arbiter (data mask : Word) :
      Effect s (.protWr data mask) (respond .silent (presentKey (merge s.platch data mask) s))
  | frame : Effect s .frameRender (respond .frame (renderFrame s))

/-- A block window's check, where the operation may use that the block exists. -/
theorem withBlockWindow_keeps_of_lt {P : State → Prop} {region b : Nat} {f : State → State} {s : State}
    (hfault : ∀ e, P (raiseFault e s)) (hf : b < s.cfg.ncb → P (f s)) : P (withBlockWindow region b f s) := by
  unfold withBlockWindow
  split
  case isTrue hb => exact hf hb
  case isFalse => exact hfault _

/-- The palette argument's check, where the operation may use that the index exists. -/
theorem withPaletteArg_keeps_of_lt {P : State → Prop} {op : HarnessOp} {i : Nat} {f : State → State} {s : State}
    (hfault : ∀ e, P (raiseFault e s)) (hf : i < s.cfg.palN → P (f s)) : P (withPaletteArg op i f s) := by
  unfold withPaletteArg
  split
  case isTrue hi => exact hf hi
  case isFalse => exact hfault _

/-- Every transaction has one of the effects of `Effect`. -/
theorem exec_effect {i : Instr} {s t : State} (h : exec i s = .next t) : Effect s i t := by
  have hfault : ∀ e, Effect s i (raiseFault e s) := .fault i
  cases i with
  | tileWr l off data mask =>
    exact exec_keeps_of_transact (exec_tileWr ..) h (.idle _) (withLayerWindow_keeps hfault fun _ => .tile ..)
  | tileRd l off =>
    exact exec_keeps_of_transact (exec_tileRd ..) h (.idle _) (withLayerWindow_keeps hfault fun _ => .data ..)
  | rscrWr l off data mask =>
    exact exec_keeps_of_transact (exec_rscrWr ..) h (.idle _) (withLayerWindow_keeps hfault fun _ => .rowtab ..)
  | rscrRd l off =>
    exact exec_keeps_of_transact (exec_rscrRd ..) h (.idle _) (withLayerWindow_keeps hfault fun _ => .data ..)
  | cscrWr l off data mask =>
    exact exec_keeps_of_transact (exec_cscrWr ..) h (.idle _) (withLayerWindow_keeps hfault fun _ => .coltab ..)
  | cscrRd l off =>
    exact exec_keeps_of_transact (exec_cscrRd ..) h (.idle _) (withLayerWindow_keeps hfault fun _ => .data ..)
  | ctrlWr b off data mask =>
    exact exec_keeps_of_transact (exec_ctrlWr ..) h (.idle _) (withBlockWindow_keeps_of_lt hfault fun hb => .cr _ _ _ hb)
  | ctrlRd b off => exact exec_keeps_of_transact (exec_ctrlRd ..) h (.idle _) (withBlockWindow_keeps hfault (.openBus _))
  | palWr0 off data mask => exact exec_keeps_of_transact (exec_palWr0 ..) h (.idle _) (.pal0 ..)
  | palRd0 off => exact exec_keeps_of_transact (exec_palRd0 ..) h (.idle _) (.data ..)
  | palWr1 off data mask =>
    exact exec_keeps_of_transact (exec_palWr1 ..) h (.idle _) (withBank1_keeps hfault (.pal1 ..))
  | palRd1 off => exact exec_keeps_of_transact (exec_palRd1 ..) h (.idle _) (withBank1_keeps hfault (.data ..))
  | sprWr off data mask => exact exec_keeps_of_transact (exec_sprWr ..) h (.idle _) (.sprram ..)
  | sprRd off => exact exec_keeps_of_transact (exec_sprRd ..) h (.idle _) (.data ..)
  | dmaWr => exact exec_keeps_of_transact (exec_dmaWr ..) h (.idle _) .snap
  | dmaRd => exact exec_keeps_of_transact (exec_dmaRd ..) h (.idle _) (.openBus _)
  | protWr data mask => exact exec_keeps_of_transact (exec_protWr ..) h (.idle _) (.arbiter ..)
  | protRd => exact exec_keeps_of_transact (exec_protRd ..) h (.idle _) (.data ..)
  | frameRender => exact exec_keeps_of_transact (exec_frameRender ..) h (.idle _) .frame
  | hUpdate l =>
    exact exec_keeps_of_transact (exec_hUpdate ..) h (.idle _)
      (withLayerArg_keeps hfault fun x => .micro _ _ (.update x))
  | hRender l =>
    exact exec_keeps_of_transact (exec_hRender ..) h (.idle _)
      (withLayerArg_keeps hfault fun x => .micro _ _ (.render x))
  | hDraw l pass =>
    exact exec_keeps_of_transact (exec_hDraw ..) h (.idle _)
      (withLayerArg_keeps hfault fun x => .micro _ _ (.draw x pass))
  | hSprdraw pass => exact exec_keeps_of_transact (exec_hSprdraw ..) h (.idle _) (.micro _ _ (.sprdraw pass))
  | hMarkused n =>
    exact exec_keeps_of_transact (exec_hMarkused ..) h (.idle _)
      (withPaletteArg_keeps_of_lt hfault fun hn => .micro _ _ (.markused hn))
  | hRecompute => exact exec_keeps_of_transact (exec_hRecompute ..) h (.idle _) (.micro _ _ .recompute)
  | hSetflip l f =>
    exact exec_keeps_of_transact (exec_hSetflip ..) h (.idle _)
      (withLayerArg_keeps hfault fun x => .micro _ _ (.setflip x f))
  | hMarkalldirty l =>
    exact exec_keeps_of_transact (exec_hMarkalldirty ..) h (.idle _)
      (withLayerArg_keeps hfault fun x => .micro _ _ (.markalldirty x))
  | hLatchscroll l =>
    exact exec_keeps_of_transact (exec_hLatchscroll ..) h (.idle _)
      (withLayerArg_keeps hfault fun x => .micro _ _ (.latchscroll x))
  | hClearused => exact exec_keeps_of_transact (exec_hClearused ..) h (.idle _) (.micro _ _ .clearused)
  | hInvalidate l =>
    exact exec_keeps_of_transact (exec_hInvalidate ..) h (.idle _)
      (withLayerArg_keeps hfault fun x => .micro _ _ (.invalidate x))
  | hFill => exact exec_keeps_of_transact (exec_hFill ..) h (.idle _) (.micro _ _ .fill)
  | hOutput => exact exec_keeps_of_transact (exec_hOutput ..) h (.idle _) (.micro _ _ .output)

/-! ## A frame as micro-operations -/

section Frame

variable {P : State → Prop} {s : State} (hmicro : ∀ {t u : State}, MicroOp t u → P t → P u)

include hmicro

theorem stepFlip_keeps (hflip : ∀ t b, P t → P { t with flipPrev := b }) (h : P s) : P (stepFlip s) := by
  unfold stepFlip
  split
  · exact h
  · exact hflip _ _ (forLayers_induct s _ h fun l _ ht => hmicro (.setflip l _) ht)

theorem stepUpdate_keeps (h : P s) : P (stepUpdate s) :=
  forLayers_induct s _ h fun l _ ht => hmicro (.render l) (hmicro (.update l) ht)

theorem stepPalette_keeps (h : P s) : P (stepPalette s) := by
  have hrec : P (recompute s) := hmicro .recompute h
  unfold stepPalette
  split
  · have hinv : P (forLayers invalidate (recompute s)) :=
      forLayers_induct _ _ hrec fun l _ ht => hmicro (.invalidate l) ht
    exact forLayers_induct _ _ hinv fun l _ ht => hmicro (.render l) ht
  · exact hrec

theorem runPasses_keeps (ps : List FramePass) (h : P s) : P (ps.foldl (fun acc p => runPass p acc) s) := by
  induction ps generalizing s with
  | nil => exact h
  | cons p rest ih =>
    refine ih ?_
    cases p with
    | layer l pass => exact hmicro (.draw l pass) h
    | sprites pass => exact hmicro (.sprdraw pass) h

/-- What every micro-operation keeps, and the sequencer's own FLIP_PREV and FRAME_CNT leave, a frame keeps. -/
theorem renderFrame_keeps (hflip : ∀ t b, P t → P { t with flipPrev := b }) (hcount : ∀ t, P t → P (countFrame t))
    (h : P s) : P (renderFrame s) := by
  have hscroll : P (stepScroll (stepFlip s)) :=
    forLayers_induct _ _ (stepFlip_keeps hmicro hflip h) fun l _ ht => hmicro (.latchscroll l) ht
  have hused := hmicro .accumulate (hmicro .clearused (stepUpdate_keeps hmicro hscroll))
  have hfill := hmicro .fill (stepPalette_keeps hmicro hused)
  exact hcount _ (hmicro .output (runPasses_keeps hmicro _ hfill))

end Frame

/-! ## The canonical form of every array -/

/-- `layerMemWf` by name: the arrays of a layer in canonical form, inside their windows. -/
structure LayerCanonical (c : Cfg) (lc : LayerCfg) (x : LayerState) : Prop where
  tile : Store.wf unlistedWord (cellsOf lc) x.tile = true
  dirty : Store.wf unlistedMark (cellsOf lc) x.dirty = true
  info : Store.wf unlistedInfo (cellsOf lc) x.info = true
  stale : Store.wf unlistedMark (cellsOf lc) x.stale = true
  pcache : Store.wf unlistedPixel (widthOf lc * heightOf lc) x.pcache = true
  rowtab : Store.wf unlistedWord c.rowTabN x.rowtab = true
  coltab : Store.wf unlistedWord c.colTabN x.coltab = true

theorem layerCanonical_iff {c : Cfg} {lc : LayerCfg} {x : LayerState} :
    LayerCanonical c lc x ↔ layerMemWf c lc x = true := by
  simp only [layerMemWf, Bool.and_eq_true]
  constructor
  · rintro ⟨h1, h2, h3, h4, h5, h6, h7⟩
    exact ⟨⟨⟨⟨⟨⟨h1, h2⟩, h3⟩, h4⟩, h5⟩, h6⟩, h7⟩
  · rintro ⟨⟨⟨⟨⟨⟨h1, h2⟩, h3⟩, h4⟩, h5⟩, h6⟩, h7⟩
    exact ⟨h1, h2, h3, h4, h5, h6, h7⟩

/-- `memWf` on a legal board by name: what every transaction keeps. The board makes every window non-empty, so that a
folded offset lies inside it (R82). -/
structure Canonical (s : State) : Prop where
  board : boardLegal s.cfg = true
  layers : ∀ l, LayerCanonical s.cfg (s.cfg.layer l) (s.layer l)
  cr : Store.wf unlistedWord (s.cfg.cbWords * s.cfg.ncb) s.cr = true
  pal0 : Store.wf unlistedWord s.cfg.palN s.pal0 = true
  pal1 : Store.wf unlistedWord s.cfg.palN s.pal1 = true
  used : Store.wf unlistedUse s.cfg.palN s.used = true
  usedPrev : Store.wf unlistedUse s.cfg.palN s.usedPrev = true
  pub : Store.wf unlistedRgb s.cfg.palN s.pub = true
  sprram : Store.wf unlistedWord s.cfg.sprRamWords s.sprram = true
  snap : Store.wf unlistedWord s.cfg.sprRamWords s.snap = true
  comp : Store.wf unlistedIndex (screenPixels s.cfg) s.comp = true
  out : Store.wf unlistedRgb (screenPixels s.cfg) s.out = true

theorem forall_layerCanonical_iff {s : State} :
    (∀ l, LayerCanonical s.cfg (s.cfg.layer l) (s.layer l)) ↔
      ((layerMemWf s.cfg s.cfg.bg s.bg = true ∧ layerMemWf s.cfg s.cfg.mida s.mida = true)
        ∧ layerMemWf s.cfg s.cfg.midb s.midb = true) ∧ layerMemWf s.cfg s.cfg.fg s.fg = true := by
  simp only [layerCanonical_iff]
  constructor
  · exact fun h => ⟨⟨⟨h .bg, h .mida⟩, h .midb⟩, h .fg⟩
  · rintro ⟨⟨⟨hbg, hmida⟩, hmidb⟩, hfg⟩ l
    cases l <;> assumption

theorem canonical_iff {s : State} : Canonical s ↔ boardLegal s.cfg = true ∧ memWf s = true := by
  simp only [memWf, Bool.and_eq_true, ← forall_layerCanonical_iff]
  constructor
  · rintro ⟨hb, h1, h2, h3, h4, h5, h6, h7, h8, h9, h10, h11⟩
    exact ⟨hb, ⟨⟨⟨⟨⟨⟨⟨⟨⟨⟨h1, h2⟩, h3⟩, h4⟩, h5⟩, h6⟩, h7⟩, h8⟩, h9⟩, h10⟩, h11⟩⟩
  · rintro ⟨hb, ⟨⟨⟨⟨⟨⟨⟨⟨⟨⟨h1, h2⟩, h3⟩, h4⟩, h5⟩, h6⟩, h7⟩, h8⟩, h9⟩, h10⟩, h11⟩⟩
    exact ⟨hb, h1, h2, h3, h4, h5, h6, h7, h8, h9, h10, h11⟩

/-! ### Every index a transaction names lies in its window -/

theorem fold_lt {size : Nat} (h : 0 < size) (off : Nat) : fold off size < size := Nat.mod_lt _ h

theorem cellsOf_pos_of_legal {b : Cfg} {lc : LayerCfg} (h : layerLegal b lc = true) : 0 < cellsOf lc := by
  obtain ⟨hcols, hrows⟩ := grid_pos_of_legal h
  exact Nat.mul_pos hcols hrows

theorem rowTabN_pos_of_legal {c : Cfg} (h : boardLegal c = true) : 0 < c.rowTabN := by
  simp only [boardLegal, Bool.and_eq_true, decide_eq_true_eq] at h
  obtain ⟨⟨⟨⟨⟨⟨⟨-, hrow⟩, -⟩, -⟩, -⟩, -⟩, -⟩, -⟩ := h
  exact hrow

theorem colTabN_pos_of_legal {c : Cfg} (h : boardLegal c = true) : 0 < c.colTabN := by
  simp only [boardLegal, Bool.and_eq_true, decide_eq_true_eq] at h
  obtain ⟨⟨⟨⟨⟨⟨-, hcol⟩, -⟩, -⟩, -⟩, -⟩, -⟩ := h
  exact hcol

theorem cbWords_pos_of_legal {c : Cfg} (h : boardLegal c = true) : 0 < c.cbWords := by
  simp only [boardLegal, countsLegal, Bool.and_eq_true, decide_eq_true_eq] at h
  omega

/-- Sprite RAM holds SPR_N entries of at least four words, and at least one entry (R300, log 19). -/
theorem sprRamWords_pos_of_legal {c : Cfg} (h : boardLegal c = true) : 0 < c.sprRamWords := by
  simp only [boardLegal, Bool.and_eq_true] at h
  obtain ⟨⟨⟨⟨⟨⟨⟨⟨-, hspr⟩, -⟩, -⟩, -⟩, -⟩, -⟩, -⟩, -⟩ := h
  simp only [spriteLegal, Bool.and_eq_true, decide_eq_true_eq, beq_iff_eq] at hspr
  obtain ⟨⟨⟨⟨⟨hwords, -⟩, hram⟩, hn⟩, -⟩, -⟩ := hspr
  rw [hram]
  exact Nat.mul_pos (by omega) hn

theorem crKey_lt {c : Cfg} {b w : Nat} (hb : b < c.ncb) (hw : w < c.cbWords) : crKey c b w < c.cbWords * c.ncb :=
  calc c.cbWords * b + w < c.cbWords * b + c.cbWords := Nat.add_lt_add_left hw _
    _ = c.cbWords * (b + 1) := rfl
    _ ≤ c.cbWords * c.ncb := Nat.mul_le_mul_left _ hb

/-- Every index ACCUMULATE marks is a palette index (R271). -/
theorem accumulated_lt {s : State} (h : boardLegal s.cfg = true) {i : Nat} (hi : i ∈ accumulated s) :
    i < s.cfg.palN := by
  have hpal := palN_pos_of_legal h
  simp only [accumulated, List.mem_append, List.mem_flatMap, List.mem_singleton] at hi
  obtain (⟨l, -, o, -, hgroup⟩ | ⟨e, -, hgroup⟩) | rfl := hi
  · obtain ⟨p, -, rfl⟩ := List.mem_map.mp hgroup
    exact Nat.mod_lt _ hpal
  · obtain ⟨p, -, rfl⟩ := List.mem_map.mp hgroup
    exact spriteIndex_lt hpal _ _
  · exact backdrop_lt_of_legal h

/-- Every write of SPRDRAW is a pixel of the screen (R318). -/
theorem spriteWrites_fst_lt {s : State} {flip : Bool} {pass : SprPass} {w : Nat × Nat}
    (hw : w ∈ spriteWrites s flip pass) : w.1 < screenPixels s.cfg := by
  simp only [spriteWrites, List.mem_flatMap, mem_cellWrites, pixelWrite_eq_some, onScreen_iff] at hw
  obtain ⟨e, -, q, -, px, py, -, -, ⟨-, hx, hy⟩, rfl⟩ := hw
  exact screenKey_lt (by omega) (by omega)

/-- A write made on a change only keeps the canonical form. -/
theorem Store.wf_write_on_change {α : Type} [DecidableEq α] {d : α} {n : Nat} {m : Store α} {k : Nat} {v : α}
    (changed : Bool) (hm : Store.wf d n m = true) (hk : k < n) :
    Store.wf d n (if changed = true then Store.write d m k v else m) = true := by
  split
  · exact Store.wf_write d n m k v hm hk
  · exact hm

/-! ### Every operation keeps the canonical form -/

namespace Canonical

variable {s t : State}

protected theorem setLayer (h : Canonical s) (l : LayerId) {x : LayerState}
    (hx : LayerCanonical s.cfg (s.cfg.layer l) x) : Canonical (s.setLayer l x) :=
  { h with
    layers := fun k => by
      rw [State.layer_setLayer]
      split
      case isTrue hk => exact hk ▸ hx
      case isFalse => exact h.layers k }

protected theorem respond (h : Canonical s) (r : Response) : Canonical (respond r s) := { h with }

protected theorem returnDraw (h : Canonical s) : Canonical (returnDraw s) := { h with }

protected theorem raiseFault (h : Canonical s) (e : Fault) : Canonical (raiseFault e s) := { h with }

protected theorem refuseWord (h : Canonical s) : Canonical (refuseWord s) := { h with }

protected theorem setPort (h : Canonical s) (rest : List Txn) : Canonical { s with port := rest } := { h with }

protected theorem setFlipPrev (h : Canonical s) (b : Bool) : Canonical { s with flipPrev := b } := { h with }

protected theorem countFrame (h : Canonical s) : Canonical (countFrame s) := { h with }

protected theorem presentKey (h : Canonical s) (key : Word) : Canonical (presentKey key s) := { h with }

protected theorem writeTile (h : Canonical s) (l : LayerId) (off : Nat) (data mask : Word) :
    Canonical (writeTile l (fold off (cellsOf (s.cfg.layer l))) data mask s) := by
  have hlt := fold_lt (cellsOf_pos_of_legal (layerLegal_of_legal h.board l)) off
  exact h.setLayer l { h.layers l with
    tile := Store.wf_write_on_change _ (h.layers l).tile hlt
    dirty := Store.wf_write_on_change _ (h.layers l).dirty hlt }

protected theorem writeRowtab (h : Canonical s) (l : LayerId) (off : Nat) (data mask : Word) :
    Canonical (writeRowtab l (fold off s.cfg.rowTabN) data mask s) :=
  h.setLayer l { h.layers l with
    rowtab := Store.wf_write _ _ _ _ _ (h.layers l).rowtab (fold_lt (rowTabN_pos_of_legal h.board) off) }

protected theorem writeColtab (h : Canonical s) (l : LayerId) (off : Nat) (data mask : Word) :
    Canonical (writeColtab l (fold off s.cfg.colTabN) data mask s) :=
  h.setLayer l { h.layers l with
    coltab := Store.wf_write _ _ _ _ _ (h.layers l).coltab (fold_lt (colTabN_pos_of_legal h.board) off) }

protected theorem writeCr (h : Canonical s) {b : Nat} (hb : b < s.cfg.ncb) (off : Nat) (data mask : Word) :
    Canonical (writeCr b (fold off s.cfg.cbWords) data mask s) :=
  { h with cr := Store.wf_write _ _ _ _ _ h.cr (crKey_lt hb (fold_lt (cbWords_pos_of_legal h.board) off)) }

protected theorem writePal0 (h : Canonical s) (off : Nat) (data mask : Word) :
    Canonical (writePal0 (fold off s.cfg.palN) data mask s) :=
  { h with pal0 := Store.wf_write_on_change _ h.pal0 (fold_lt (palN_pos_of_legal h.board) off) }

protected theorem writePal1 (h : Canonical s) (off : Nat) (data mask : Word) :
    Canonical (writePal1 (fold off s.cfg.palN) data mask s) :=
  { h with pal1 := Store.wf_write_on_change _ h.pal1 (fold_lt (palN_pos_of_legal h.board) off) }

protected theorem writeSprram (h : Canonical s) (off : Nat) (data mask : Word) :
    Canonical (writeSprram (fold off s.cfg.sprRamWords) data mask s) :=
  { h with sprram := Store.wf_write _ _ _ _ _ h.sprram (fold_lt (sprRamWords_pos_of_legal h.board) off) }

protected theorem copySnapshot (h : Canonical s) : Canonical (copySnapshot s) :=
  { h with snap := Store.wf_tabulate .. }

protected theorem markAllDirty (h : Canonical s) (l : LayerId) : Canonical (markAllDirty l s) :=
  h.setLayer l { h.layers l with dirty := Store.wf_tabulate .. }

protected theorem recompute (h : Canonical s) : Canonical (recompute s) := by
  unfold Machine.recompute
  split
  · exact { h with pub := Store.wf_tabulate .., usedPrev := h.used }
  · exact h

protected theorem accumulate (h : Canonical s) : Canonical (accumulate s) := by
  refine { h with used := Store.wf_writeAll _ _ _ _ h.used fun w hw => ?_ }
  obtain ⟨i, hi, rfl⟩ := List.mem_map.mp hw
  exact accumulated_lt h.board hi

/-- Every micro-operation keeps the canonical form: it tabulates a whole window, or writes inside it. -/
protected theorem microOp (h : Canonical s) (hu : MicroOp s t) : Canonical t := by
  cases hu with
  | update l =>
    exact h.setLayer l { h.layers l with
      info := Store.wf_tabulate .., stale := Store.wf_tabulate .., dirty := Store.wf_tabulate .. }
  | render l =>
    exact h.setLayer l { h.layers l with pcache := Store.wf_tabulate .., stale := Store.wf_tabulate .. }
  | draw l pass => exact { h with comp := Store.wf_tabulate .. }
  | sprdraw pass => exact { h with comp := Store.wf_writeAll _ _ _ _ h.comp fun _ hw => spriteWrites_fst_lt hw }
  | markused hi => exact { h with used := Store.wf_write _ _ _ _ true h.used hi }
  | recompute => exact h.recompute
  | setflip l f => exact (h.setLayer (x := { s.layer l with flip := f }) l { h.layers l with }).markAllDirty l
  | markalldirty l => exact h.markAllDirty l
  | latchscroll l => exact h.setLayer l { h.layers l with }
  | clearused => exact { h with used := Store.wf_tabulate .. }
  | accumulate => exact h.accumulate
  | invalidate l => exact h.setLayer l { h.layers l with stale := Store.wf_tabulate .. }
  | fill => exact { h with comp := Store.wf_tabulate .. }
  | output => exact { h with out := Store.wf_tabulate .. }

protected theorem renderFrame (h : Canonical s) : Canonical (renderFrame s) :=
  renderFrame_keeps (fun hu ht => Canonical.microOp ht hu) (fun _ b ht => ht.setFlipPrev b) (fun _ ht => ht.countFrame) h

/-- Every transaction keeps the canonical form. -/
protected theorem effect (h : Canonical s) {i : Instr} (hi : Effect s i t) : Canonical t := by
  cases hi with
  | idle => exact h
  | fault i e => exact h.raiseFault e
  | data i v => exact h.respond _
  | openBus i => exact h.returnDraw
  | micro i r hu => exact (h.microOp hu).respond r
  | tile l off data mask x => exact (h.writeTile x off data mask).respond _
  | rowtab l off data mask x => exact (h.writeRowtab x off data mask).respond _
  | coltab l off data mask x => exact (h.writeColtab x off data mask).respond _
  | cr off data mask hb => exact (h.writeCr hb off data mask).respond _
  | pal0 off data mask => exact (h.writePal0 off data mask).respond _
  | pal1 off data mask => exact (h.writePal1 off data mask).respond _
  | sprram off data mask => exact (h.writeSprram off data mask).respond _
  | snap => exact h.copySnapshot.respond _
  | arbiter data mask => exact (h.presentKey _).respond _
  | frame => exact h.renderFrame.respond _

end Canonical

/-- Settles O11: a step idles, refuses its word or performs a transaction on a legal board, and each keeps `Canonical`. -/
theorem stepKeepsMemoryForm : Obligations.StepKeepsMemoryForm := by
  intro s t hmem hstep
  obtain rfl | ⟨w, rest, -, hboard, -, hperform⟩ := step_next s hstep
  · exact hmem
  · have h : Canonical { s with port := rest } := (canonical_iff.mpr ⟨hboard, hmem⟩).setPort rest
    have ht : Canonical t := by
      obtain ⟨r, -, rfl⟩ | ⟨i, -, hexec⟩ := hperform
      · exact h.refuseWord
      · exact h.effect (exec_effect hexec)
    exact (canonical_iff.mp ht).2

/-! ## The storage -/

/-- The parts of a state that at most one kind of transaction changes: the board, which none does, the storage arrays and
the registers. -/
structure Storage where
  cfg : Cfg
  tile : LayerId → Store Word
  rowtab : LayerId → Store Word
  coltab : LayerId → Store Word
  cr : Store Word
  pal0 : Store Word
  pal1 : Store Word
  sprram : Store Word
  snap : Store Word
  pstate : ArbState
  preadback : Word
  platch : Word
  flipPrev : Bool
  frameCnt : BitVec 32

/-- The storage of a state. -/
def storageOf (s : State) : Storage :=
  { cfg := s.cfg, tile := fun l => (s.layer l).tile, rowtab := fun l => (s.layer l).rowtab
    coltab := fun l => (s.layer l).coltab, cr := s.cr, pal0 := s.pal0, pal1 := s.pal1, sprram := s.sprram, snap := s.snap
    pstate := s.pstate, preadback := s.preadback, platch := s.platch, flipPrev := s.flipPrev, frameCnt := s.frameCnt }

/-- What a transaction may change of the storage: its own part, or nothing. -/
inductive StorageChange (a : Storage) : Instr → Storage → Prop
  | none (i : Instr) : StorageChange a i a
  | tile (l off : Nat) (data mask : Word) (v : LayerId → Store Word) :
      StorageChange a (.tileWr l off data mask) { a with tile := v }
  | rowtab (l off : Nat) (data mask : Word) (v : LayerId → Store Word) :
      StorageChange a (.rscrWr l off data mask) { a with rowtab := v }
  | coltab (l off : Nat) (data mask : Word) (v : LayerId → Store Word) :
      StorageChange a (.cscrWr l off data mask) { a with coltab := v }
  | cr (b off : Nat) (data mask : Word) (v : Store Word) : StorageChange a (.ctrlWr b off data mask) { a with cr := v }
  | pal0 (off : Nat) (data mask : Word) (v : Store Word) : StorageChange a (.palWr0 off data mask) { a with pal0 := v }
  | pal1 (off : Nat) (data mask : Word) (v : Store Word) : StorageChange a (.palWr1 off data mask) { a with pal1 := v }
  | sprram (off : Nat) (data mask : Word) (v : Store Word) : StorageChange a (.sprWr off data mask) { a with sprram := v }
  | snap (v : Store Word) : StorageChange a .dmaWr { a with snap := v }
  | arbiter (data mask : Word) (st : ArbState) (rb key : Word) :
      StorageChange a (.protWr data mask) { a with pstate := st, preadback := rb, platch := key }
  | frame (f : Bool) (n : BitVec 32) : StorageChange a .frameRender { a with flipPrev := f, frameCnt := n }

namespace StorageChange

variable {a b : Storage} {i : Instr}

theorem cfg_eq (h : StorageChange a i b) : b.cfg = a.cfg := by
  cases h <;> rfl

theorem tile_eq (h : StorageChange a i b) (hi : ∀ l off d m, i ≠ .tileWr l off d m) : b.tile = a.tile := by
  cases h with
  | tile l off d m => exact absurd rfl (hi l off d m)
  | _ => rfl

theorem rowtab_eq (h : StorageChange a i b) (hi : ∀ l off d m, i ≠ .rscrWr l off d m) : b.rowtab = a.rowtab := by
  cases h with
  | rowtab l off d m => exact absurd rfl (hi l off d m)
  | _ => rfl

theorem coltab_eq (h : StorageChange a i b) (hi : ∀ l off d m, i ≠ .cscrWr l off d m) : b.coltab = a.coltab := by
  cases h with
  | coltab l off d m => exact absurd rfl (hi l off d m)
  | _ => rfl

theorem cr_eq (h : StorageChange a i b) (hi : ∀ b off d m, i ≠ .ctrlWr b off d m) : b.cr = a.cr := by
  cases h with
  | cr b off d m => exact absurd rfl (hi b off d m)
  | _ => rfl

theorem pal0_eq (h : StorageChange a i b) (hi : ∀ off d m, i ≠ .palWr0 off d m) : b.pal0 = a.pal0 := by
  cases h with
  | pal0 off d m => exact absurd rfl (hi off d m)
  | _ => rfl

theorem pal1_eq (h : StorageChange a i b) (hi : ∀ off d m, i ≠ .palWr1 off d m) : b.pal1 = a.pal1 := by
  cases h with
  | pal1 off d m => exact absurd rfl (hi off d m)
  | _ => rfl

theorem sprram_eq (h : StorageChange a i b) (hi : ∀ off d m, i ≠ .sprWr off d m) : b.sprram = a.sprram := by
  cases h with
  | sprram off d m => exact absurd rfl (hi off d m)
  | _ => rfl

theorem snap_eq (h : StorageChange a i b) (hi : i ≠ .dmaWr) : b.snap = a.snap := by
  cases h with
  | snap => exact absurd rfl hi
  | _ => rfl

theorem arbiter_eq (h : StorageChange a i b) (hi : ∀ d m, i ≠ .protWr d m) :
    b.pstate = a.pstate ∧ b.preadback = a.preadback ∧ b.platch = a.platch := by
  cases h with
  | arbiter d m => exact absurd rfl (hi d m)
  | _ => exact ⟨rfl, rfl, rfl⟩

theorem frame_eq (h : StorageChange a i b) (hi : i ≠ .frameRender) :
    b.frameCnt = a.frameCnt ∧ b.flipPrev = a.flipPrev := by
  cases h with
  | frame => exact absurd rfl hi
  | _ => exact ⟨rfl, rfl⟩

end StorageChange

/-- The storage of a state with a layer replaced. -/
theorem storageOf_setLayer (s : State) (l : LayerId) (x : LayerState) :
    storageOf (s.setLayer l x)
      = { storageOf s with
          tile := Function.update (storageOf s).tile l x.tile
          rowtab := Function.update (storageOf s).rowtab l x.rowtab
          coltab := Function.update (storageOf s).coltab l x.coltab } := by
  have hupdate : ∀ g : LayerState → Store Word,
      (fun k => g ((s.setLayer l x).layer k)) = Function.update (fun k => g (s.layer k)) l (g x) := fun g => by
    funext k
    rw [State.layer_setLayer, Function.update_apply]
    split <;> rfl
  simp only [storageOf, State.setLayer_cfg, hupdate]
  rfl

theorem storageOf_respond (r : Response) (s : State) : storageOf (respond r s) = storageOf s := rfl

/-- A layer update that leaves two of TILE, ROWTAB and COLTAB changes the third alone of the storage. -/
theorem storageOf_setLayer_tile {s : State} {l : LayerId} {x : LayerState}
    (hrowtab : x.rowtab = (storageOf s).rowtab l) (hcoltab : x.coltab = (storageOf s).coltab l) :
    storageOf (s.setLayer l x) = { storageOf s with tile := Function.update (storageOf s).tile l x.tile } := by
  rw [storageOf_setLayer, hrowtab, hcoltab, Function.update_eq_self, Function.update_eq_self]

theorem storageOf_setLayer_rowtab {s : State} {l : LayerId} {x : LayerState}
    (htile : x.tile = (storageOf s).tile l) (hcoltab : x.coltab = (storageOf s).coltab l) :
    storageOf (s.setLayer l x) = { storageOf s with rowtab := Function.update (storageOf s).rowtab l x.rowtab } := by
  rw [storageOf_setLayer, htile, hcoltab, Function.update_eq_self, Function.update_eq_self]

theorem storageOf_setLayer_coltab {s : State} {l : LayerId} {x : LayerState}
    (htile : x.tile = (storageOf s).tile l) (hrowtab : x.rowtab = (storageOf s).rowtab l) :
    storageOf (s.setLayer l x) = { storageOf s with coltab := Function.update (storageOf s).coltab l x.coltab } := by
  rw [storageOf_setLayer, htile, hrowtab, Function.update_eq_self, Function.update_eq_self]

/-- A layer update that leaves TILE, ROWTAB and COLTAB leaves the storage. -/
theorem storageOf_setLayer_frame {s : State} {l : LayerId} {x : LayerState} (htile : x.tile = (storageOf s).tile l)
    (hrowtab : x.rowtab = (storageOf s).rowtab l) (hcoltab : x.coltab = (storageOf s).coltab l) :
    storageOf (s.setLayer l x) = storageOf s := by
  rw [storageOf_setLayer_tile hrowtab hcoltab, htile, Function.update_eq_self]

theorem storageOf_markAllDirty (s : State) (l : LayerId) : storageOf (markAllDirty l s) = storageOf s :=
  storageOf_setLayer_frame rfl rfl rfl

theorem storageOf_writeTile (s : State) (l : LayerId) (o : Nat) (data mask : Word) :
    ∃ v, storageOf (writeTile l o data mask s) = { storageOf s with tile := v } :=
  ⟨_, storageOf_setLayer_tile rfl rfl⟩

theorem storageOf_writeRowtab (s : State) (l : LayerId) (e : Nat) (data mask : Word) :
    ∃ v, storageOf (writeRowtab l e data mask s) = { storageOf s with rowtab := v } :=
  ⟨_, storageOf_setLayer_rowtab rfl rfl⟩

theorem storageOf_writeColtab (s : State) (l : LayerId) (e : Nat) (data mask : Word) :
    ∃ v, storageOf (writeColtab l e data mask s) = { storageOf s with coltab := v } :=
  ⟨_, storageOf_setLayer_coltab rfl rfl⟩

/-- No micro-operation writes storage: the caches are all it changes (R89). -/
theorem MicroOp.storageOf_eq {s u : State} (hu : MicroOp s u) : storageOf u = storageOf s := by
  cases hu with
  | update l => exact storageOf_setLayer_frame rfl rfl rfl
  | render l => exact storageOf_setLayer_frame rfl rfl rfl
  | draw l pass => rfl
  | sprdraw pass => rfl
  | markused hi => rfl
  | recompute =>
    unfold Machine.recompute
    split <;> rfl
  | setflip l f =>
    exact (storageOf_markAllDirty _ l).trans (storageOf_setLayer_frame (x := { s.layer l with flip := f }) rfl rfl rfl)
  | markalldirty l => exact storageOf_markAllDirty s l
  | latchscroll l => exact storageOf_setLayer_frame rfl rfl rfl
  | clearused => rfl
  | accumulate => rfl
  | invalidate l => exact storageOf_setLayer_frame rfl rfl rfl
  | fill => rfl
  | output => rfl

/-- A frame writes FLIP_PREV and FRAME_CNT only (R381, R389). -/
theorem storageOf_renderFrame (s : State) :
    ∃ f n, storageOf (renderFrame s) = { storageOf s with flipPrev := f, frameCnt := n } := by
  refine renderFrame_keeps (P := fun u => ∃ f n, storageOf u = { storageOf s with flipPrev := f, frameCnt := n })
    ?_ ?_ ?_ ⟨s.flipPrev, s.frameCnt, rfl⟩
  · rintro t u hu ⟨f, n, ht⟩
    exact ⟨f, n, hu.storageOf_eq.trans ht⟩
  · rintro t b ⟨f, n, ht⟩
    exact ⟨b, n, congrArg (fun a : Storage => { a with flipPrev := b }) ht⟩
  · rintro t ⟨f, n, ht⟩
    exact ⟨f, t.frameCnt + 1, congrArg (fun a : Storage => { a with frameCnt := t.frameCnt + 1 }) ht⟩

theorem StorageChange.of_eq {a b c : Storage} {i : Instr} (hb : b = c) (h : StorageChange a i c) :
    StorageChange a i b := hb ▸ h

/-- A transaction changes its own part of the storage, or nothing. -/
theorem Effect.storageChange {s t : State} {i : Instr} (h : Effect s i t) :
    StorageChange (storageOf s) i (storageOf t) := by
  cases h with
  | idle => exact .none i
  | fault i e => exact .none i
  | data i v => exact .none i
  | openBus i => exact .none i
  | micro i r hu => exact .of_eq ((storageOf_respond ..).trans hu.storageOf_eq) (.none i)
  | tile l off data mask x =>
    obtain ⟨v, hv⟩ := storageOf_writeTile s x (fold off (cellsOf (s.cfg.layer x))) data mask
    exact .of_eq ((storageOf_respond ..).trans hv) (.tile ..)
  | rowtab l off data mask x =>
    obtain ⟨v, hv⟩ := storageOf_writeRowtab s x (fold off s.cfg.rowTabN) data mask
    exact .of_eq ((storageOf_respond ..).trans hv) (.rowtab ..)
  | coltab l off data mask x =>
    obtain ⟨v, hv⟩ := storageOf_writeColtab s x (fold off s.cfg.colTabN) data mask
    exact .of_eq ((storageOf_respond ..).trans hv) (.coltab ..)
  | cr off data mask hb => exact .cr ..
  | pal0 off data mask => exact .pal0 ..
  | pal1 off data mask => exact .pal1 ..
  | sprram off data mask => exact .sprram ..
  | snap => exact .snap _
  | arbiter data mask => exact .arbiter ..
  | frame =>
    obtain ⟨f, n, hv⟩ := storageOf_renderFrame s
    exact .of_eq ((storageOf_respond ..).trans hv) (.frame ..)

/-- A step that meets a transaction's word changes that transaction's part of the storage, or nothing. -/
theorem step_storageChange {s t : State} {w : Txn} {rest : List Txn} {i : Instr} (hport : s.port = w :: rest)
    (hdecode : decode w = .ok i) (hstep : step s = .next t) : StorageChange (storageOf s) i (storageOf t) := by
  obtain rfl | ⟨w', rest', hport', -, -, hperform⟩ := step_next s hstep
  · exact .none i
  · obtain ⟨rfl, rfl⟩ := List.cons.inj (hport.symm.trans hport')
    obtain ⟨r, hr, -⟩ | ⟨j, hj, hexec⟩ := hperform
    · cases hdecode.symm.trans hr
    · obtain rfl := Except.ok.inj (hdecode.symm.trans hj)
      exact (exec_effect hexec).storageChange

/-- Settles O17: each part of the storage has one kind of transaction that `StorageChange` lets change it. -/
theorem onlyItsWriterChangesStorage : Obligations.OnlyItsWriterChangesStorage := by
  intro s t w rest i hport hdecode hstep
  have h := step_storageChange hport hdecode hstep
  exact ⟨fun hi => congrFun (h.tile_eq hi), fun hi => congrFun (h.rowtab_eq hi), fun hi => congrFun (h.coltab_eq hi),
    h.cr_eq, h.pal0_eq, h.pal1_eq, h.sprram_eq, h.snap_eq, h.arbiter_eq, h.frame_eq⟩

/-! ## Steps -/

/-- Settles O5: a running block on a legal board takes the head word, and a decoded word is performed by exec. -/
theorem stepPerformsTheDecodedTransaction : Obligations.StepPerformsTheDecodedTransaction := by
  intro s w rest i hport hboard hrun hdecode
  rw [takeStep_cons s hport hboard hrun, perform_ok _ hdecode]

/-- A legal board refuses no step: a halted block idles, and a refused word and a fault are next states (R430, R431). -/
theorem step_next_of_legal {s : State} (hboard : boardLegal s.cfg = true) : ∃ t, step s = .next t := by
  cases hport : s.port with
  | nil => exact ⟨s, takeStep_nil s hport⟩
  | cons w rest =>
    cases hhalt : halted s with
    | true => exact ⟨s, takeStep_halted s hboard hhalt⟩
    | false =>
      rw [takeStep_cons s hport hboard hhalt]
      cases hdecode : decode w with
      | error r => exact ⟨_, perform_error _ hdecode⟩
      | ok i =>
        rw [perform_ok _ hdecode]
        exact exec_next _ i

theorem step_illegal {s : State} {w : Txn} {rest : List Txn} (hport : s.port = w :: rest)
    (hboard : boardLegal s.cfg = false) : step s = .refused .illegalBoard := by
  simp [step, takeStep, hport, takeWord, hboard]

/-- No step changes the board (log 4). -/
theorem step_cfg {s t : State} (hstep : step s = .next t) : t.cfg = s.cfg := by
  obtain rfl | ⟨w, rest, -, -, -, ⟨r, -, rfl⟩ | ⟨i, -, hexec⟩⟩ := step_next s hstep
  · rfl
  · rfl
  · exact (exec_effect hexec).storageChange.cfg_eq

/-- Settles O7: no transaction refuses and none touches the board, so legality alone decides. -/
theorem onlyAnIllegalBoardIsRefused : Obligations.OnlyAnIllegalBoardIsRefused := by
  refine fun s => ⟨fun hboard => ?_, fun hboard w rest hport => step_illegal hport hboard⟩
  obtain ⟨t, hstep⟩ := step_next_of_legal hboard
  refine ⟨t, hstep, step_cfg hstep, fun hport => ?_⟩
  rw [takeStep_nil s hport] at hstep
  exact (Host.Outcome.next.inj hstep).symm

/-! ## Byte lanes -/

/-- The lowest bit of a lane (R83). -/
def laneShift (l : Lane) : Nat :=
  match l with
  | .high => 8
  | .low => 0

theorem getLsbD_byteOfLane (l : Lane) (w : Word) {j : Nat} (hj : j < 8) :
    (byteOfLane l w).getLsbD j = w.getLsbD (laneShift l + j) := by
  cases l <;> simp [byteOfLane, laneShift, hj]

/-- A byte on both lanes is read back from either (R85). -/
theorem getLsbD_byteOnLanes (l : Lane) (v : BitVec 8) {j : Nat} (hj : j < 8) :
    (byteOnLanes v).getLsbD (laneShift l + j) = v.getLsbD j := by
  rw [byteOnLanes, BitVec.getLsbD_append]
  cases l <;> simp [laneShift, hj]

/-- The mask of a lane holds the bits of that lane and none of the other's (R83). -/
theorem getLsbD_maskOfLane (l k : Lane) {j : Nat} (hj : j < 8) :
    (maskOfLane l).getLsbD (laneShift k + j) = decide (k = l) := by
  have hbits : ∀ j : Fin 8, (maskOfLane l).getLsbD (laneShift k + j) = decide (k = l) := by
    cases l <;> cases k <;> decide
  exact hbits ⟨j, hj⟩

/-- A byte merged under the mask of lane `l` is the byte of lane `l` and leaves the byte of the other (R84, R85). -/
theorem byteOfLane_merge (l k : Lane) (old : Word) (v : BitVec 8) :
    byteOfLane k (merge old (byteOnLanes v) (maskOfLane l)) = if k = l then v else byteOfLane k old := by
  refine BitVec.eq_of_getLsbD_eq fun j hj => ?_
  rw [getLsbD_byteOfLane k _ hj, getLsbD_merge, getLsbD_maskOfLane l k hj, getLsbD_byteOnLanes k v hj]
  by_cases hk : k = l
  · simp [hk]
  · simp [hk, getLsbD_byteOfLane k old hj]

/-- The bytes of a word as numbers: bits 15:8 and bits 7:0 (R83). -/
theorem byteOfLane_toNat (l : Lane) (w : Word) :
    (byteOfLane l w).toNat = if l = .high then w.toNat / 256 else w.toNat % 256 := by
  have hlt := w.isLt
  cases l
  · simp only [byteOfLane, BitVec.extractLsb'_toNat, Nat.shiftRight_eq_div_pow, if_true]
    omega
  · simp [byteOfLane, BitVec.extractLsb'_toNat]

/-- Settles O60: the mask and the byte read back are those of one lane, whatever lane the map gives the address. -/
theorem byteWriteChangesOneLane : Obligations.ByteWriteChangesOneLane := by
  constructor
  · intro m addr old v
    refine ⟨?_, fun other hother => ?_, fun hl => ⟨?_, ?_⟩, fun hl => ⟨?_, ?_⟩⟩
    · exact (byteOfLane_merge ..).trans (if_pos rfl)
    · exact (byteOfLane_merge ..).trans (if_neg hother)
    · rw [laneMask, hl]; rfl
    · rw [laneOf, hl]; exact byteOfLane_toNat .high old
    · rw [laneMask, hl]; rfl
    · rw [laneOf, hl]; exact byteOfLane_toNat .low old
  · intro addr
    have hlane : laneAt Config.defaultBoard.laneMap addr = if addr % 2 = 0 then .high else .low := rfl
    rw [laneMask, hlane]
    split <;> rfl

end Sys2Proof.Machine
end

section
/-!
PROOFS. The encoding family: encoder and decoder as inverses of each other (O1, O2), the refused words (O3), and the
encoding examples (O4).
-/

namespace Sys2Proof.Machine

/-! ## A word and its fields (R110) -/

/-- The fields of a word fit their widths. -/
theorem fieldsFit_fieldsOf (w : Txn) : FieldsFit (fieldsOf w) :=
  ⟨BitVec.isLt _, BitVec.isLt _, BitVec.isLt _, BitVec.isLt _⟩

/-- Packing the fields taken out of a word gives it back: the seven fields cover its 64 bits. -/
theorem pack_fieldsOf (w : Txn) : pack (fieldsOf w) = w := by
  have hwe : (w.getLsbD 59).toNat = w.toNat / 2 ^ 59 % 2 := by
    rw [BitVec.getLsbD, Nat.toNat_testBit]
  apply BitVec.eq_of_toNat_eq
  rw [pack_toNat _ (fieldsFit_fieldsOf w)]
  have hw := w.isLt
  simp only [fieldsOf, hwe, BitVec.extractLsb'_toNat, Nat.shiftRight_eq_div_pow]
  omega

/-- A word is the one packed from `f` exactly when its fields are `f`. -/
theorem fieldsOf_eq_iff {f : TxnFields} (hf : FieldsFit f) {w : Txn} : fieldsOf w = f ↔ w = pack f := by
  constructor
  · rintro rfl
    exact (pack_fieldsOf w).symm
  · rintro rfl
    exact fieldsOf_pack f hf

/-! ## The one-bit argument (R116) -/

theorem oneBitData_iff {data : Word} : oneBitData data = true ↔ data.toNat < 2 := by
  have hdata := data.isLt
  have hhigh : (data.extractLsb' 1 15).toNat = data.toNat / 2 % 2 ^ 15 := by
    rw [BitVec.extractLsb'_toNat, Nat.shiftRight_eq_div_pow, pow_one]
  rw [oneBitData, beq_iff_eq, BitVec.toNat_eq, hhigh]
  change _ = 0 ↔ _
  omega

@[simp] theorem oneBitData_bitData (b : Bool) : oneBitData (bitData b) = true := by cases b <;> rfl

@[simp] theorem getElem_bitData (b : Bool) : (bitData b)[0] = b := by cases b <;> rfl

/-- A one-bit argument is spelled by its bit 0. -/
theorem bitData_getElem {data : Word} (h : oneBitData data = true) : bitData data[0] = data := by
  have hbit : data = 0#16 ∨ data = 1#16 := by
    have := oneBitData_iff.mp h
    simp only [BitVec.toNat_eq, BitVec.toNat_ofNat]
    omega
  obtain rfl | rfl := hbit <;> rfl

@[simp] theorem layerPassOf_beq_front (data : Word) : (layerPassOf data == .front) = data[0] := by
  rw [layerPassOf, BitVec.getLsbD_eq_getElem (by decide)]
  cases data[0] <;> rfl

@[simp] theorem sprPassOf_beq_high (data : Word) : (sprPassOf data == .high) = data[0] := by
  rw [sprPassOf, BitVec.getLsbD_eq_getElem (by decide)]
  cases data[0] <;> rfl

@[simp] theorem layerPassOf_bitData (pass : LayerPass) : layerPassOf (bitData (pass == .front)) = pass := by
  cases pass <;> rfl

@[simp] theorem sprPassOf_bitData (pass : SprPass) : sprPassOf (bitData (pass == .high)) = pass := by
  cases pass <;> rfl

/-! ## Decoding an encoded transaction -/

/-- The fields of a well-formed transaction fit the word, whatever the transaction. -/
theorem fieldsFit_instrFields : ∀ i, Laws.FieldsOk.Statement i
  | .tileWr .. => Laws.FieldsOk.tileWr _ _ _ _
  | .tileRd .. => Laws.FieldsOk.tileRd _ _
  | .rscrWr .. => Laws.FieldsOk.rscrWr _ _ _ _
  | .rscrRd .. => Laws.FieldsOk.rscrRd _ _
  | .cscrWr .. => Laws.FieldsOk.cscrWr _ _ _ _
  | .cscrRd .. => Laws.FieldsOk.cscrRd _ _
  | .ctrlWr .. => Laws.FieldsOk.ctrlWr _ _ _ _
  | .ctrlRd .. => Laws.FieldsOk.ctrlRd _ _
  | .palWr0 .. => Laws.FieldsOk.palWr0 _ _ _
  | .palRd0 .. => Laws.FieldsOk.palRd0 _
  | .palWr1 .. => Laws.FieldsOk.palWr1 _ _ _
  | .palRd1 .. => Laws.FieldsOk.palRd1 _
  | .sprWr .. => Laws.FieldsOk.sprWr _ _ _
  | .sprRd .. => Laws.FieldsOk.sprRd _
  | .dmaWr => Laws.FieldsOk.dmaWr
  | .dmaRd => Laws.FieldsOk.dmaRd
  | .protWr .. => Laws.FieldsOk.protWr _ _
  | .protRd => Laws.FieldsOk.protRd
  | .frameRender => Laws.FieldsOk.frameRender
  | .hUpdate .. => Laws.FieldsOk.hUpdate _
  | .hRender .. => Laws.FieldsOk.hRender _
  | .hDraw .. => Laws.FieldsOk.hDraw _ _
  | .hSprdraw .. => Laws.FieldsOk.hSprdraw _
  | .hMarkused .. => Laws.FieldsOk.hMarkused _
  | .hRecompute => Laws.FieldsOk.hRecompute
  | .hSetflip .. => Laws.FieldsOk.hSetflip _ _
  | .hMarkalldirty .. => Laws.FieldsOk.hMarkalldirty _
  | .hLatchscroll .. => Laws.FieldsOk.hLatchscroll _
  | .hClearused => Laws.FieldsOk.hClearused
  | .hInvalidate .. => Laws.FieldsOk.hInvalidate _
  | .hFill => Laws.FieldsOk.hFill
  | .hOutput => Laws.FieldsOk.hOutput

/-- The decoder reads back the fields of any transaction: a window's operands are its fields, and a one-bit argument is
read back from its bit. -/
theorem decodeFields_instrFields (i : Instr) : decodeFields (instrFields i) = .ok i := by
  cases i
  case hDraw | hSprdraw | hSetflip =>
    simp [instrFields, actionFields, writeFields, decodeFields, decodeHarness1, needZero]
  all_goals rfl

/-- Settles O1: the fields of a well-formed transaction come out of its word, and the decoder reads them back. -/
theorem decodeOfEncodeIsTheTransaction : Obligations.DecodeOfEncodeIsTheTransaction := by
  intro i hi
  rw [decode, encode, fieldsOf_pack _ (fieldsFit_instrFields i hi), decodeFields_instrFields]

/-! ## Inverting the decoder's shared steps -/

theorem windowForm_ok {f : TxnFields} {wr rd i : Instr} (h : windowForm f wr rd = .ok i) :
    (f.we = true ∧ i = wr) ∨ (f.we = false ∧ f.mask = 0 ∧ f.data = 0 ∧ i = rd) := by
  unfold windowForm at h
  split at h
  case isTrue hwe => exact .inl ⟨hwe, (Except.ok.inj h).symm⟩
  case isFalse hwe =>
    split at h
    case isTrue hz => exact .inr ⟨Bool.eq_false_iff.mpr hwe, hz.1, hz.2, (Except.ok.inj h).symm⟩
    case isFalse => cases h

theorem singleWindow_ok {f : TxnFields} {wr rd i : Instr} (h : singleWindow f wr rd = .ok i) :
    f.sub = 0 ∧ windowForm f wr rd = .ok i := by
  unfold singleWindow at h
  split at h
  case isTrue hsub => exact ⟨hsub, h⟩
  case isFalse => cases h

theorem needZero_ok {ok : Bool} {i j : Instr} (h : needZero ok i = .ok j) : ok = true ∧ i = j := by
  cases ok
  · cases h
  · exact ⟨rfl, Except.ok.inj h⟩

/-! ## Reencoding a decoded word -/

/-- The transactions that ignore a field (R116, R124, R351, R352). -/
def IgnoresFields (i : Instr) : Prop := i = .dmaWr ∨ i = .dmaRd ∨ i = .protRd ∨ ∃ data mask, i = .protWr data mask

/-- Encoding `i` gives the fields `f` again, unless `i` ignores some of them. -/
def Reencodes (f : TxnFields) (i : Instr) : Prop := IgnoresFields i ∨ instrFields i = f

/-- A window whose two forms carry every field of the word. -/
theorem windowForm_reencodes {f : TxnFields} {wr rd i : Instr} {region sub : Nat} (hrsvd : f.rsvd = 0)
    (hregion : f.region = region) (hsub : f.sub = sub)
    (hwr : instrFields wr = writeFields region sub f.off f.data f.mask)
    (hrd : instrFields rd = readFields region sub f.off) (h : windowForm f wr rd = .ok i) : Reencodes f i := by
  obtain ⟨region', we, sub', rsvd, off, mask, data⟩ := f
  right
  obtain ⟨hwe, rfl⟩ | ⟨hwe, hmask, hdata, rfl⟩ := windowForm_ok h
  · simp_all [writeFields]
  · simp_all [readFields]

/-- A window both forms of which ignore fields. -/
theorem windowForm_ignores {f : TxnFields} {wr rd i : Instr} (hwr : IgnoresFields wr) (hrd : IgnoresFields rd)
    (h : windowForm f wr rd = .ok i) : Reencodes f i := by
  obtain ⟨-, rfl⟩ | ⟨-, -, -, rfl⟩ := windowForm_ok h
  · exact .inl hwr
  · exact .inl hrd

theorem decodePalette_reencodes {f : TxnFields} {i : Instr} (hrsvd : f.rsvd = 0) (hregion : f.region = 5)
    (h : decodePalette f = .ok i) : Reencodes f i := by
  unfold decodePalette at h
  split at h
  next hsub => exact windowForm_reencodes hrsvd hregion hsub rfl rfl h
  next hsub => exact windowForm_reencodes hrsvd hregion hsub rfl rfl h
  next => cases h

/-- FRAME.RENDER has one word (R120). -/
theorem decodeFrame_ok_iff {f : TxnFields} {i : Instr} (hrsvd : f.rsvd = 0) (hregion : f.region = 9) :
    decodeFrame f = .ok i ↔ f = instrFields .frameRender ∧ i = .frameRender := by
  obtain ⟨region, we, sub, rsvd, off, mask, data⟩ := f
  obtain rfl : rsvd = 0 := hrsvd
  obtain rfl : region = 9 := hregion
  simp only [decodeFrame, instrFields, actionFields, writeFields, TxnFields.mk.injEq, true_and]
  constructor
  · intro h
    split at h
    case isTrue hz => exact ⟨by tauto, (Except.ok.inj h).symm⟩
    case isFalse => cases h
  · rintro ⟨hz, rfl⟩
    exact if_pos (by tauto)

/-- An action of the harness: the fields of its word (R121, R122). -/
theorem eq_actionFields {f : TxnFields} {region sub off : Nat} {data : Word} (hrsvd : f.rsvd = 0) (hwe : f.we = true)
    (hmask : f.mask = 0) (hregion : f.region = region) (hsub : f.sub = sub) (hoff : f.off = off) (hdata : f.data = data) :
    actionFields region sub off data = f := by
  subst hregion hsub hoff hdata
  rw [actionFields, writeFields, ← hrsvd, ← hwe, ← hmask]

theorem decodeHarness1_reencodes {f : TxnFields} {i : Instr} (hrsvd : f.rsvd = 0) (hregion : f.region = 0xF)
    (h : decodeHarness1 f = .ok i) : Reencodes f i := by
  unfold decodeHarness1 at h
  split at h
  case isFalse => cases h
  case isTrue hform =>
    obtain ⟨hwe, hmask⟩ := hform
    right
    split at h
    case h_9 => cases h
    all_goals
      next hsub =>
        obtain ⟨hz, rfl⟩ := needZero_ok h
        apply eq_actionFields hrsvd hwe hmask hregion hsub <;> simp_all [bitData_getElem]

theorem decodeHarness2_reencodes {f : TxnFields} {i : Instr} (hrsvd : f.rsvd = 0) (hregion : f.region = 0xE)
    (h : decodeHarness2 f = .ok i) : Reencodes f i := by
  unfold decodeHarness2 at h
  split at h
  case isFalse => cases h
  case isTrue hform =>
    obtain ⟨hwe, hmask, hdata⟩ := hform
    right
    split at h
    case h_1 hsub | h_3 hsub =>
      obtain rfl := Except.ok.inj h
      exact eq_actionFields hrsvd hwe hmask hregion hsub rfl hdata
    case h_6 => cases h
    all_goals
      next hsub =>
        obtain ⟨hz, rfl⟩ := needZero_ok h
        exact eq_actionFields hrsvd hwe hmask hregion hsub (beq_iff_eq.mp hz) hdata

/-- What the decoder answers for the fields `f` is encoded as `f` again (R125). -/
theorem decodeFields_reencodes {f : TxnFields} {i : Instr} (h : decodeFields f = .ok i) : Reencodes f i := by
  unfold decodeFields at h
  split at h
  case isFalse => cases h
  case isTrue hrsvd =>
    split at h
    case h_1 hregion | h_2 hregion | h_3 hregion | h_4 hregion =>
      exact windowForm_reencodes hrsvd hregion rfl rfl rfl h
    case h_5 hregion => exact decodePalette_reencodes hrsvd hregion h
    case h_6 hregion =>
      obtain ⟨hsub, h⟩ := singleWindow_ok h
      exact windowForm_reencodes hrsvd hregion hsub rfl rfl h
    case h_7 => exact windowForm_ignores (.inl rfl) (.inr (.inl rfl)) (singleWindow_ok h).2
    case h_8 => exact windowForm_ignores (.inr (.inr (.inr ⟨_, _, rfl⟩))) (.inr (.inr (.inl rfl))) (singleWindow_ok h).2
    case h_9 hregion =>
      obtain ⟨hf, rfl⟩ := (decodeFrame_ok_iff hrsvd hregion).mp h
      exact .inr hf.symm
    case h_10 hregion => exact decodeHarness2_reencodes hrsvd hregion h
    case h_11 hregion => exact decodeHarness1_reencodes hrsvd hregion h
    case h_12 => cases h

theorem wellFormed_of_ignoresFields {i : Instr} (h : IgnoresFields i) : i.wellFormed = true := by
  obtain rfl | rfl | rfl | ⟨data, mask, rfl⟩ := h <;> rfl

/-- The converse of `fieldsFit_instrFields`: a transaction whose fields fit the word is well-formed (R110). -/
theorem wellFormed_of_fieldsFit {i : Instr} (h : FieldsFit (instrFields i)) : i.wellFormed = true := by
  cases i <;> simp_all [FieldsFit, instrFields, actionFields, writeFields, readFields, Instr.wellFormed, subOk, offsetOk]

/-- Settles O2: the fields of the word are those of the transaction it decodes to, and the fields of a word fit. -/
theorem decodedWordIsReencoded : Obligations.DecodedWordIsReencoded := by
  intro w i h
  obtain hig | hf := decodeFields_reencodes h
  · refine ⟨wellFormed_of_ignoresFields hig, fun hwr hrd hprotRd hprotWr => ?_⟩
    obtain rfl | rfl | rfl | ⟨data, mask, rfl⟩ := hig
    · exact absurd rfl hwr
    · exact absurd rfl hrd
    · exact absurd rfl hprotRd
    · exact absurd rfl (hprotWr data mask)
  · refine ⟨wellFormed_of_fieldsFit (hf ▸ fieldsFit_fieldsOf w), fun _ _ _ _ => ?_⟩
    rw [encode, hf, pack_fieldsOf]

/-! ## The refused words (R131) -/

/-- An answer of the decoder that is no transaction. -/
def Refuses (x : Except RefuseReason Instr) : Prop := ∃ r, x = .error r

@[simp] theorem refuses_error (r : RefuseReason) : Refuses (.error r) := ⟨r, rfl⟩

@[simp] theorem not_refuses_ok (i : Instr) : ¬ Refuses (.ok i) := nofun

theorem not_refuses_iff {x : Except RefuseReason Instr} : ¬ Refuses x ↔ ∃ i, x = .ok i := by
  cases x <;> simp

theorem refuses_ite {p : Prop} [Decidable p] {x y : Except RefuseReason Instr} :
    Refuses (if p then x else y) ↔ (p ∧ Refuses x) ∨ (¬ p ∧ Refuses y) := by
  split <;> simp_all

@[simp] theorem refuses_needZero {ok : Bool} {i : Instr} : Refuses (needZero ok i) ↔ ok = false := by
  cases ok <;> simp [needZero]

/-- A window refuses a read form with MASK or DATA not zero (R117). -/
theorem refuses_windowForm {f : TxnFields} {wr rd : Instr} :
    Refuses (windowForm f wr rd) ↔ f.we = false ∧ (f.mask ≠ 0 ∨ f.data ≠ 0) := by
  simp only [windowForm, refuses_ite, not_refuses_ok, refuses_error, and_false, false_or, and_true,
    Bool.not_eq_true, not_and_or, ne_eq]

/-- A window that is there once refuses every SUB but 0 too (R111). -/
theorem refuses_singleWindow {f : TxnFields} {wr rd : Instr} :
    Refuses (singleWindow f wr rd) ↔ f.sub ≠ 0 ∨ (f.we = false ∧ (f.mask ≠ 0 ∨ f.data ≠ 0)) := by
  simp only [singleWindow, refuses_ite, refuses_windowForm, refuses_error]
  tauto

theorem refuses_decodePalette {f : TxnFields} :
    Refuses (decodePalette f) ↔ 2 ≤ f.sub ∨ (f.we = false ∧ (f.mask ≠ 0 ∨ f.data ≠ 0)) := by
  unfold decodePalette
  split
  next hsub => simp [refuses_windowForm, hsub]
  next hsub => simp [refuses_windowForm, hsub]
  next h0 h1 =>
    simp only [imp_false] at h0 h1
    exact iff_of_true (refuses_error _) (.inl (by omega))

theorem refuses_decodeFrame {f : TxnFields} (hrsvd : f.rsvd = 0) (hregion : f.region = 9) :
    Refuses (decodeFrame f) ↔ f ≠ instrFields .frameRender := by
  rw [← not_iff_not, not_refuses_iff, not_not]
  simp [decodeFrame_ok_iff hrsvd hregion]

theorem oneBitData_eq_false_iff {data : Word} : oneBitData data = false ↔ 2 ≤ data.toNat := by
  rw [← Bool.not_eq_true, oneBitData_iff, not_lt]

/-- Harness bank 1: WE, MASK, and the arguments of each action (R121, R123). -/
theorem refuses_decodeHarness1 {f : TxnFields} (hsub : f.sub < 8) :
    Refuses (decodeHarness1 f) ↔
      (f.we = false ∨ f.mask ≠ 0)
        ∨ ((f.sub = 0 ∨ f.sub = 1 ∨ f.sub = 4 ∨ f.sub = 5 ∨ f.sub = 7) ∧ f.data ≠ 0)
        ∨ ((f.sub = 2 ∨ f.sub = 3 ∨ f.sub = 6) ∧ 2 ≤ f.data.toNat)
        ∨ ((f.sub = 3 ∨ f.sub = 5) ∧ f.off ≠ 0) := by
  unfold decodeHarness1
  split
  case isFalse hform =>
    rw [not_and_or, Bool.not_eq_true] at hform
    exact iff_of_true (refuses_error _) (.inl hform)
  case isTrue hform =>
    obtain ⟨hwe, hmask⟩ := hform
    split
    case h_9 => simp only [imp_false] at *; omega
    all_goals simp_all [oneBitData_eq_false_iff, Bool.and_eq_false_iff, or_comm, -Bool.and_eq_false_imp]

/-- Harness bank 2: WE, MASK, DATA, SUB, and the argument of each action (R122, R123). -/
theorem refuses_decodeHarness2 {f : TxnFields} :
    Refuses (decodeHarness2 f) ↔
      (f.we = false ∨ f.mask ≠ 0) ∨ 5 ≤ f.sub ∨ f.data ≠ 0
        ∨ ((f.sub = 1 ∨ f.sub = 3 ∨ f.sub = 4) ∧ f.off ≠ 0) := by
  unfold decodeHarness2
  split
  case isFalse hform =>
    rw [not_and_or, not_and_or, Bool.not_eq_true] at hform
    exact iff_of_true (refuses_error _) (by tauto)
  case isTrue hform =>
    obtain ⟨hwe, hmask, hdata⟩ := hform
    split
    case h_6 =>
      simp only [imp_false] at *
      exact iff_of_true (refuses_error _) (.inr (.inl (by omega)))
    all_goals simp_all

/-- The frame region's one word (R120). -/
theorem fieldsOf_ne_frameRender_iff {w : Txn} :
    fieldsOf w ≠ instrFields .frameRender ↔ w ≠ 0x9800000000000000 :=
  (fieldsOf_eq_iff (fieldsFit_instrFields _ rfl)).not

theorem decodeFields_of_rsvd {f : TxnFields} (h : f.rsvd ≠ 0) : decodeFields f = .error .rsvdBits := if_neg h

/-- The refused fields, condition by condition in the order of R131: outside its own region each condition is false, and
inside the region they add up to what its decoder refuses. -/
theorem refuses_decodeFields_iff {f : TxnFields} (hf : FieldsFit f) :
    Refuses (decodeFields f) ↔
      f.rsvd ≠ 0
      ∨ (f.region = 0x0 ∨ (0xA ≤ f.region ∧ f.region ≤ 0xD))
      ∨ (f.region = 0x5 ∧ 2 ≤ f.sub)
      ∨ ((f.region = 0x6 ∨ f.region = 0x7 ∨ f.region = 0x8 ∨ f.region = 0x9) ∧ f.sub ≠ 0)
      ∨ (1 ≤ f.region ∧ f.region ≤ 8 ∧ f.we = false ∧ (f.mask ≠ 0 ∨ f.data ≠ 0))
      ∨ (f.region = 0x9 ∧ f ≠ instrFields .frameRender)
      ∨ ((f.region = 0xE ∨ f.region = 0xF) ∧ (f.we = false ∨ f.mask ≠ 0))
      ∨ (f.region = 0xE ∧ 5 ≤ f.sub)
      ∨ (f.region = 0xE ∧ (f.data ≠ 0 ∨ ((f.sub = 1 ∨ f.sub = 3 ∨ f.sub = 4) ∧ f.off ≠ 0)))
      ∨ (f.region = 0xF ∧ (f.sub = 0 ∨ f.sub = 1 ∨ f.sub = 4 ∨ f.sub = 5 ∨ f.sub = 7) ∧ f.data ≠ 0)
      ∨ (f.region = 0xF ∧ (f.sub = 2 ∨ f.sub = 3 ∨ f.sub = 6) ∧ 2 ≤ f.data.toNat)
      ∨ (f.region = 0xF ∧ (f.sub = 3 ∨ f.sub = 5) ∧ f.off ≠ 0) := by
  obtain ⟨hregion, hsub, -, -⟩ := hf
  by_cases hrsvd : f.rsvd = 0
  case neg => simp [decodeFields_of_rsvd, hrsvd]
  unfold decodeFields
  rw [if_pos hrsvd]
  split
  case h_1 hr | h_2 hr | h_3 hr | h_4 hr => simp [hr, hrsvd, refuses_windowForm]
  case h_5 hr => simp [hr, hrsvd, refuses_decodePalette]
  case h_6 hr | h_7 hr | h_8 hr => simp [hr, hrsvd, refuses_singleWindow]
  case h_9 hr =>
    have hframe : f.sub ≠ 0 → f ≠ instrFields .frameRender := by
      rintro h rfl
      exact h rfl
    simpa [hr, hrsvd, refuses_decodeFrame] using hframe
  case h_10 hr => simp [hr, hrsvd, refuses_decodeHarness2]
  case h_11 hr => simp [hr, hrsvd, refuses_decodeHarness1 hsub]
  case h_12 =>
    simp only [imp_false] at *
    exact iff_of_true (refuses_error _) (.inr (.inl (by omega)))

/-- A refused word at the head of the stream is taken and sets REFUSED, which halts the block (R131, R431). -/
theorem step_refused {s : State} {w : Txn} {rest : List Txn} {r : RefuseReason} (hport : s.port = w :: rest)
    (hboard : boardLegal s.cfg = true) (hrun : halted s = false) (hdecode : decode w = .error r) :
    step s = .next (refuseWord { s with port := rest }) := by
  rw [takeStep_cons s hport hboard hrun, perform_error _ hdecode]

theorem halted_of_refused {s : State} (h : s.refused = true) : halted s = true := by
  rw [halted, h, Bool.or_true]

/-- Settles O3: the conditions are those of `refuses_decodeFields_iff`, and the step is `step_refused`. -/
theorem refusedWordsAreExactlyTheListedOnes : Obligations.RefusedWordsAreExactlyTheListedOnes := by
  refine ⟨fun w => ?_, fun s w rest r hport hboard hrun hdecode => ?_⟩
  · have hlist := refuses_decodeFields_iff (fieldsFit_fieldsOf w)
    rwa [fieldsOf_ne_frameRender_iff] at hlist
  · exact ⟨step_refused hport hboard hrun hdecode, halted_of_refused rfl⟩

/-! ## The encoding examples (R143) -/

/-- Settles O4: the fields of each word are literals, so the decoder evaluates on them. -/
theorem encodingExamplesDecode : Obligations.EncodingExamplesDecode :=
  ⟨rfl, rfl, rfl, rfl, rfl, rfl, rfl, rfl, rfl, rfl, rfl, rfl, rfl, rfl⟩

end Sys2Proof.Machine
end

section
/-!
PROOFS. The bus family: the two cache invariants that every step keeps (O12, O13), and each CPU bus window's write and
read, with the NO_WINDOW fault of an instance the board lacks (O18-O21, O23-O28).
-/

namespace Sys2Proof.Machine

/-! ## What every step keeps -/

/-- What taking a word, refusing it and every effect of a transaction keep, a step keeps. -/
theorem step_keeps {P : State → Prop} {s t : State} (hport : ∀ u rest, P u → P { u with port := rest })
    (hrefuse : ∀ u, P u → P (refuseWord u)) (heffect : ∀ {u v i}, Effect u i v → P u → P v) (hstep : step s = .next t)
    (h : P s) : P t := by
  obtain rfl | ⟨w, rest, -, -, -, hperform⟩ := step_next s hstep
  · exact h
  · obtain ⟨r, -, rfl⟩ | ⟨i, -, hexec⟩ := hperform
    · exact hrefuse _ (hport s rest h)
    · exact heffect (exec_effect hexec) (hport s rest h)

/-! ## INFO and PCACHE follow the tile words -/

/-- The part of `InfoCoherent` and `CacheCoherent` that one layer has to meet. -/
structure LayerCoherent (c : Cfg) (lc : LayerCfg) (x : LayerState) : Prop where
  info : ∀ o, o < cellsOf lc → dirtyAt x o = false → infoAt x o = decodeInfo lc.dec (tileAt x o)
  cache : ∀ lx ly, lx < widthOf lc → ly < heightOf lc → staleAt x (cellAt lc lx ly) = false →
    pcacheAt lc x lx ly = lpixInfo c lc (infoAt x (cellAt lc lx ly)) (lx % lc.cw) (ly % lc.ch)

/-- Every layer's caches follow its tile words. -/
def Coherent (s : State) : Prop := ∀ l, LayerCoherent s.cfg (s.cfg.layer l) (s.layer l)

theorem coherent_iff {s : State} : Coherent s ↔ InfoCoherent s ∧ CacheCoherent s := by
  constructor
  · exact fun h => ⟨fun l => (h l).info, fun l => (h l).cache⟩
  · rintro ⟨hinfo, hcache⟩ l
    exact ⟨hinfo l, hcache l⟩

namespace LayerCoherent

variable {c : Cfg} {lc : LayerCfg} {x y : LayerState}

/-- Coherence speaks of TILE, DIRTY, INFO, STALE and PCACHE only. -/
protected theorem congr (h : LayerCoherent c lc x) (htile : y.tile = x.tile) (hdirty : y.dirty = x.dirty)
    (hinfo : y.info = x.info) (hstale : y.stale = x.stale) (hpcache : y.pcache = x.pcache) : LayerCoherent c lc y := by
  obtain ⟨hi, hc⟩ := h
  constructor
  · simpa only [dirtyAt, infoAt, tileAt, htile, hdirty, hinfo] using hi
  · simpa only [staleAt, pcacheAt, infoAt, hstale, hpcache, hinfo] using hc

/-- A change of TILE and DIRTY that leaves every tile word of a clean cell. -/
protected theorem of_tile_dirty (h : LayerCoherent c lc x) (hinfo : y.info = x.info) (hstale : y.stale = x.stale)
    (hpcache : y.pcache = x.pcache)
    (hclean : ∀ o, dirtyAt y o = false → dirtyAt x o = false ∧ tileAt y o = tileAt x o) : LayerCoherent c lc y where
  info o ho hdirty := by
    obtain ⟨hold, htile⟩ := hclean o hdirty
    simpa only [infoAt, hinfo, htile] using h.info o ho hold
  cache := by simpa only [staleAt, pcacheAt, infoAt, hstale, hpcache, hinfo] using h.cache

end LayerCoherent

namespace Coherent

variable {s t : State}

/-- Coherence speaks of the board and the layers only. -/
protected theorem congr (h : Coherent s) (hcfg : t.cfg = s.cfg) (hlayer : ∀ l, t.layer l = s.layer l) : Coherent t := by
  intro l
  rw [hcfg, hlayer l]
  exact h l

protected theorem setLayer (h : Coherent s) (l : LayerId) {x : LayerState}
    (hx : LayerCoherent s.cfg (s.cfg.layer l) x) : Coherent (s.setLayer l x) := by
  intro k
  rw [State.layer_setLayer]
  split
  case isTrue hk => exact hk ▸ hx
  case isFalse => exact h k

protected theorem respond (h : Coherent s) (r : Response) : Coherent (respond r s) := h.congr rfl fun _ => rfl

/-! ### The operations on the tile words and their caches -/

/-- A word that changes leaves its cell dirty (R150). -/
protected theorem writeTile (h : Coherent s) (l : LayerId) (o : Nat) (data mask : Word) :
    Coherent (writeTile l o data mask s) := by
  obtain ⟨x, hx, htile, hdirty, hframe⟩ := writeTile_spec s l o data mask
  rw [hx]
  refine h.setLayer l ((h l).of_tile_dirty (by rw [← hframe]) (by rw [← hframe]) (by rw [← hframe])
    fun p hp => ?_)
  rw [hdirty] at hp
  rw [htile]
  split at hp
  case isTrue => cases hp
  case isFalse hkept =>
    refine ⟨hp, ?_⟩
    split
    case isTrue hpo =>
      rw [hpo]
      exact not_not.mp fun hchanged => hkept ⟨hpo, hchanged⟩
    case isFalse => rfl

protected theorem writeRowtab (h : Coherent s) (l : LayerId) (e : Nat) (data mask : Word) :
    Coherent (writeRowtab l e data mask s) := h.setLayer l ((h l).congr rfl rfl rfl rfl rfl)

protected theorem writeColtab (h : Coherent s) (l : LayerId) (e : Nat) (data mask : Word) :
    Coherent (writeColtab l e data mask s) := h.setLayer l ((h l).congr rfl rfl rfl rfl rfl)

/-- Every cell dirty: INFO need not follow any tile word (R230). -/
protected theorem markAllDirty (h : Coherent s) (l : LayerId) : Coherent (markAllDirty l s) := by
  obtain ⟨x, hx, hdirty, hframe⟩ := markAllDirty_spec s l
  rw [hx]
  refine h.setLayer l ((h l).of_tile_dirty (by rw [← hframe]) (by rw [← hframe]) (by rw [← hframe])
    fun o ho => ?_)
  cases (hdirty o).symm.trans ho

/-- Every decoded cell is stale, so a cell that is not stale keeps its INFO (R228). -/
protected theorem updateLayer (h : Coherent s) (l : LayerId) : Coherent (updateLayer l s) := by
  obtain ⟨x, hx, hinfo, hstale, -, hframe⟩ := updateLayer_spec s l
  have htile : x.tile = (s.layer l).tile := by rw [← hframe]
  have hpcache : x.pcache = (s.layer l).pcache := by rw [← hframe]
  rw [hx]
  refine h.setLayer l ⟨fun o ho _ => ?_, fun lx ly hlx hly hfresh => ?_⟩
  · rw [hinfo, if_pos ho, tileAt, tileAt, htile]
    split
    case isTrue => rfl
    case isFalse hclean => exact (h l).info o ho (Bool.eq_false_iff.mpr hclean)
  · rw [hstale] at hfresh
    split at hfresh
    case isFalse => cases hfresh
    case isTrue ho =>
      obtain ⟨hclean, hold⟩ := Bool.or_eq_false_iff.mp hfresh
      have hkept : infoAt x (cellAt (s.cfg.layer l) lx ly) = infoAt (s.layer l) (cellAt (s.cfg.layer l) lx ly) := by
        rw [hinfo, if_pos ho, hclean, if_neg Bool.false_ne_true]
      rw [hkept, pcacheAt, hpcache]
      exact (h l).cache lx ly hlx hly hold

/-- A stale pixel is rendered from INFO, any other is as it was (R229). -/
protected theorem renderLayer (h : Coherent s) (l : LayerId) : Coherent (renderLayer l s) := by
  obtain ⟨x, hx, hpcache, -, hframe⟩ := renderLayer_spec s l
  have htile : x.tile = (s.layer l).tile := by rw [← hframe]
  have hdirty : x.dirty = (s.layer l).dirty := by rw [← hframe]
  have hinfo : x.info = (s.layer l).info := by rw [← hframe]
  rw [hx]
  refine h.setLayer l ⟨?_, fun lx ly hlx hly _ => ?_⟩
  · simpa only [dirtyAt, infoAt, tileAt, htile, hdirty, hinfo] using (h l).info
  · rw [hpcache lx ly hlx hly, renderedPixel, infoAt, infoAt, hinfo]
    split
    case isTrue => rfl
    case isFalse hfresh => exact (h l).cache lx ly hlx hly (Bool.eq_false_iff.mpr hfresh)

/-- Every cell stale: PCACHE need not follow INFO (R275). -/
protected theorem invalidate (h : Coherent s) (l : LayerId) : Coherent (invalidate l s) := by
  obtain ⟨x, hx, hstale, hframe⟩ := invalidate_spec s l
  have htile : x.tile = (s.layer l).tile := by rw [← hframe]
  have hdirty : x.dirty = (s.layer l).dirty := by rw [← hframe]
  have hinfo : x.info = (s.layer l).info := by rw [← hframe]
  rw [hx]
  refine h.setLayer l ⟨?_, fun lx ly _ _ hfresh => ?_⟩
  · simpa only [dirtyAt, infoAt, tileAt, htile, hdirty, hinfo] using (h l).info
  · cases (hstale _).symm.trans hfresh

/-! ### Every transaction -/

protected theorem recompute (h : Coherent s) : Coherent (recompute s) := by
  unfold Machine.recompute
  split
  · exact h.congr rfl fun _ => rfl
  · exact h

protected theorem microOp (h : Coherent s) (hu : MicroOp s t) : Coherent t := by
  cases hu with
  | update l => exact h.updateLayer l
  | render l => exact h.renderLayer l
  | invalidate l => exact h.invalidate l
  | markalldirty l => exact h.markAllDirty l
  | setflip l f =>
    have hflip := h.setLayer (x := { s.layer l with flip := f }) l ((h l).congr rfl rfl rfl rfl rfl)
    exact hflip.markAllDirty l
  | latchscroll l => exact h.setLayer l ((h l).congr rfl rfl rfl rfl rfl)
  | recompute => exact h.recompute
  | draw | sprdraw | markused | clearused | accumulate | fill | output => exact h.congr rfl fun _ => rfl

protected theorem renderFrame (h : Coherent s) : Coherent (renderFrame s) :=
  renderFrame_keeps (fun hu ht => Coherent.microOp ht hu) (fun _ _ ht => ht.congr rfl fun _ => rfl)
    (fun _ ht => ht.congr rfl fun _ => rfl) h

/-- Every transaction keeps the caches coherent: TILE.WR and the micro-operations alone touch them. -/
protected theorem effect (h : Coherent s) {i : Instr} (hi : Effect s i t) : Coherent t := by
  cases hi with
  | idle => exact h
  | micro i r hu => exact (h.microOp hu).respond r
  | frame => exact h.renderFrame.respond _
  | tile l off data mask x => exact (h.writeTile x _ data mask).respond _
  | rowtab l off data mask x => exact (h.writeRowtab x _ data mask).respond _
  | coltab l off data mask x => exact (h.writeColtab x _ data mask).respond _
  | fault | data | openBus | cr | pal0 | pal1 | sprram | snap | arbiter => exact h.congr rfl fun _ => rfl

end Coherent

/-- Settles O12: the two invariants together are `Coherent`, which every effect of a transaction keeps. -/
theorem stepKeepsCacheCoherence : Obligations.StepKeepsCacheCoherence := by
  intro s t hinfo hcache hstep
  have ht : Coherent t := step_keeps (fun _ _ h => h.congr rfl fun _ => rfl) (fun _ h => h.congr rfl fun _ => rfl)
    (fun hi h => Coherent.effect h hi) hstep (coherent_iff.mpr ⟨hinfo, hcache⟩)
  exact coherent_iff.mp ht

/-! ## PUB follows the palette words -/

/-- A write that leaves PAL_DIRTY 0 met no change, and the flag was 0 before it (R49). -/
theorem palDirtyOnChange_eq_false {old new : Word} {flag : Bool} :
    palDirtyOnChange old new flag = false ↔ wordChanges old new = false ∧ flag = false :=
  Bool.or_eq_false_iff

/-- A palette write that leaves PAL_DIRTY 0 has changed nothing at all (R158, R160). -/
theorem writePal0_of_clean {s : State} {i : Nat} {data mask : Word}
    (h : (writePal0 i data mask s).palDirty = false) : writePal0 i data mask s = s := by
  obtain ⟨hsame, -⟩ := palDirtyOnChange_eq_false.mp h
  simp only [writePal0, palDirtyOnChange, hsame, Bool.false_or, Bool.false_eq_true, if_false]

theorem writePal1_of_clean {s : State} {i : Nat} {data mask : Word}
    (h : (writePal1 i data mask s).palDirty = false) : writePal1 i data mask s = s := by
  obtain ⟨hsame, -⟩ := palDirtyOnChange_eq_false.mp h
  simp only [writePal1, palDirtyOnChange, hsame, Bool.false_or, Bool.false_eq_true, if_false]

/-- A colour is a function of the storage: the palette words under the board's format (R261, R262). -/
theorem rgbOf_of_storageOf_eq {s t : State} (h : storageOf t = storageOf s) (i : Nat) : rgbOf t i = rgbOf s i := by
  have hcfg : t.cfg = s.cfg := congrArg Storage.cfg h
  have hpal0 : t.pal0 = s.pal0 := congrArg Storage.pal0 h
  have hpal1 : t.pal1 = s.pal1 := congrArg Storage.pal1 h
  simp only [rgbOf, pal0At, pal1At, hcfg, hpal0, hpal1]

namespace PubCoherent

variable {s t : State}

/-- The invariant speaks of the board, the palette words, PAL_DIRTY, USED_PREV and PUB only. -/
protected theorem congr (h : PubCoherent s) (hcfg : t.cfg = s.cfg) (hpal0 : t.pal0 = s.pal0) (hpal1 : t.pal1 = s.pal1)
    (hdirty : t.palDirty = s.palDirty) (hprev : t.usedPrev = s.usedPrev) (hpub : t.pub = s.pub) : PubCoherent t := by
  simpa only [PubCoherent, usedPrevAt, pubAt, rgbOf, pal0At, pal1At, hcfg, hpal0, hpal1, hdirty, hprev, hpub] using h

/-- An operation that changes nothing when it leaves PAL_DIRTY 0. -/
theorem of_eq_of_clean (h : PubCoherent s) (ht : t.palDirty = false → t = s) : PubCoherent t := by
  intro hclean
  obtain rfl := ht hclean
  exact h hclean

protected theorem setLayer (h : PubCoherent s) (l : LayerId) (x : LayerState) : PubCoherent (s.setLayer l x) :=
  h.congr rfl rfl rfl rfl rfl rfl

protected theorem respond (h : PubCoherent s) (r : Response) : PubCoherent (respond r s) :=
  h.congr rfl rfl rfl rfl rfl rfl

/-- A RECOMPUTE that runs publishes the very entries it notes as used (R272). -/
protected theorem recompute (h : PubCoherent s) : PubCoherent (recompute s) := by
  obtain ⟨hidle, hruns⟩ := recompute_spec s
  cases hrun : recomputeRuns s with
  | false =>
    rw [hidle hrun]
    exact h
  | true =>
    obtain ⟨hpub, hprev, -, -⟩ := hruns hrun
    have hstorage := (MicroOp.recompute (s := s)).storageOf_eq
    have hcfg : (recompute s).cfg = s.cfg := congrArg Storage.cfg hstorage
    intro _ i hi hprevUsed
    have hused : usedAt s i = true := by rwa [usedPrevAt, hprev] at hprevUsed
    rw [hpub, if_pos (hcfg ▸ hi), if_pos hused, rgbOf_of_storageOf_eq hstorage]

/-! ### Every transaction -/

protected theorem microOp (h : PubCoherent s) (hu : MicroOp s t) : PubCoherent t := by
  cases hu with
  | recompute => exact h.recompute
  | setflip l f => exact (h.setLayer l { s.layer l with flip := f }).setLayer l _
  | update l | render l | markalldirty l | latchscroll l | invalidate l => exact h.setLayer l _
  | draw | sprdraw | markused | clearused | accumulate | fill | output => exact h.congr rfl rfl rfl rfl rfl rfl

protected theorem renderFrame (h : PubCoherent s) : PubCoherent (renderFrame s) :=
  renderFrame_keeps (fun hu ht => PubCoherent.microOp ht hu) (fun _ _ ht => ht.congr rfl rfl rfl rfl rfl rfl)
    (fun _ ht => ht.congr rfl rfl rfl rfl rfl rfl) h

/-- Every transaction keeps the published colours: PAL.WR, RECOMPUTE and the frame alone touch them. -/
protected theorem effect (h : PubCoherent s) {i : Instr} (hi : Effect s i t) : PubCoherent t := by
  cases hi with
  | idle => exact h
  | micro i r hu => exact (h.microOp hu).respond r
  | frame => exact h.renderFrame.respond _
  | pal0 off data mask => exact (h.of_eq_of_clean writePal0_of_clean).respond _
  | pal1 off data mask => exact (h.of_eq_of_clean writePal1_of_clean).respond _
  | tile l off data mask x | rowtab l off data mask x | coltab l off data mask x => exact (h.setLayer x _).respond _
  | fault | data | openBus | cr | sprram | snap | arbiter => exact h.congr rfl rfl rfl rfl rfl rfl

end PubCoherent

/-- Settles O13: every effect of a transaction keeps the invariant. -/
theorem stepKeepsPublishedPalette : Obligations.StepKeepsPublishedPalette :=
  fun _ _ h hstep => step_keeps (fun _ _ h => h.congr rfl rfl rfl rfl rfl rfl)
    (fun _ h => h.congr rfl rfl rfl rfl rfl rfl) (fun hi h => PubCoherent.effect h hi) hstep h

/-! ## Windows that a board may lack -/

section Window

variable {s : State} {region l : Nat}

theorem transact_layerWindow_none (f : LayerId → State → State) (hrun : halted s = false) (hl : s.cfg.nl ≤ l) :
    transact (withLayerWindow region l f) s = .next { s with fault := some (.noWindow region l), resp := .silent } := by
  rw [transact_running s _ hrun, withLayerWindow_none s f hl, raiseFault]

theorem transact_layerWindow_some (f : LayerId → State → State) {x : LayerId} (hrun : halted s = false)
    (hx : layerOf s.cfg l = some x) : transact (withLayerWindow region l f) s = .next (f x s) := by
  rw [transact_running s _ hrun, withLayerWindow_some s f hx]

theorem transact_bank1_packed (f : State → State) (hrun : halted s = false) (hfmt : s.cfg.palFmt = .packedRgbx) :
    transact (withBank1 f) s = .next { s with fault := some (.noWindow 0x5 1), resp := .silent } := by
  rw [transact_running s _ hrun, withBank1_packed s f hfmt, raiseFault]

theorem transact_bank1_split (f : State → State) (hrun : halted s = false) (hfmt : s.cfg.palFmt = .splitRgB) :
    transact (withBank1 f) s = .next (f s) := by
  rw [transact_running s _ hrun, withBank1_split s f hfmt]

end Window

/-! ## The layer windows -/

/-- A read of any layer after the write of one: `g` reads the array written, `p` says where. -/
theorem read_layer_setLayer {α : Type} {s : State} {x : LayerId} {y : LayerState} (g : LayerState → Nat → α)
    {p : Nat → Prop} [DecidablePred p] {v : α} (hy : ∀ o, g y o = if p o then v else g (s.layer x) o) (k : LayerId)
    (o : Nat) : g ((s.setLayer x y).layer k) o = if k = x ∧ p o then v else g (s.layer k) o := by
  by_cases hk : k = x
  · subst hk
    simp only [State.layer_setLayer_same, hy, true_and]
  · simp only [State.layer_setLayer_other s y hk, hk, false_and, if_false]

/-- A write of layer `x` and its response are undone by putting the layer and the response back. -/
theorem respond_setLayer_restore {s : State} {x : LayerId} {y z : LayerState} (r : Response) (hz : z = s.layer x) :
    { (respond r (s.setLayer x y)).setLayer x z with resp := s.resp } = s := by
  subst hz
  cases x <;> rfl

/-- Settles O18: TILE.WR performs `writeTile` on the folded offset, and `writeTile_spec` says all it does. -/
theorem tileWriteMergesAndMarksDirty : Obligations.TileWriteMergesAndMarksDirty := by
  intro s off data mask hrun
  refine ⟨fun l hl => ?_, fun l x hx => ?_⟩
  · rw [exec_tileWr, transact_layerWindow_none _ hrun hl]
  · obtain ⟨y, hy, htile, hdirty, hframe⟩ := writeTile_spec s x (fold off (cellsOf (s.cfg.layer x))) data mask
    refine ⟨respond .silent (s.setLayer x y), ?_, fun k p => ?_, fun k p => ?_, rfl, ?_⟩
    · rw [exec_tileWr, transact_layerWindow_some _ hrun hx, hy]
    · rw [respond_layer]
      exact read_layer_setLayer tileAt htile k p
    · rw [respond_layer]
      exact read_layer_setLayer dirtyAt hdirty k p
    · rw [respond_layer, State.layer_setLayer_same]
      exact respond_setLayer_restore .silent hframe

/-- A write of one entry of an array of one layer: `g` reads that array, `put` puts it back in a layer as it was. -/
theorem exec_layerEntryWrite {s : State} {i : Instr} {region l e : Nat} {x : LayerId} {y : LayerState} {v : Word}
    {f : LayerId → State → State} (g : LayerState → Nat → Word) (put : LayerState → LayerState)
    (hi : exec i s = transact (withLayerWindow region l fun x t => respond .silent (f x t)) s) (hrun : halted s = false)
    (hx : layerOf s.cfg l = some x) (hy : f x s = s.setLayer x y)
    (hread : ∀ p, g y p = if p = e then v else g (s.layer x) p) (hframe : put y = s.layer x) :
    ∃ t, exec i s = .next t
      ∧ (∀ k p, g (t.layer k) p = if k = x ∧ p = e then v else g (s.layer k) p)
      ∧ t.resp = .silent
      ∧ { t.setLayer x (put (t.layer x)) with resp := s.resp } = s := by
  refine ⟨respond .silent (s.setLayer x y), ?_, fun k p => ?_, rfl, ?_⟩
  · rw [hi, transact_layerWindow_some _ hrun hx, hy]
  · rw [respond_layer]
    exact read_layer_setLayer g hread k p
  · rw [respond_layer, State.layer_setLayer_same]
    exact respond_setLayer_restore .silent hframe

/-- Settles O20: `writeRowtab` and `writeColtab` on the folded entry, each with its `_spec`. -/
theorem scrollTableWritesMerge : Obligations.ScrollTableWritesMerge := by
  intro s off data mask hrun
  refine ⟨fun l hl => ⟨?_, ?_⟩, fun l x hx => ⟨?_, ?_⟩⟩
  · rw [exec_rscrWr, transact_layerWindow_none _ hrun hl]
  · rw [exec_cscrWr, transact_layerWindow_none _ hrun hl]
  · obtain ⟨y, hy, hread, hframe⟩ := writeRowtab_spec s x (fold off s.cfg.rowTabN) data mask
    exact exec_layerEntryWrite rowtabAt (fun z => { z with rowtab := (s.layer x).rowtab }) (exec_rscrWr ..) hrun hx hy
      hread hframe
  · obtain ⟨y, hy, hread, hframe⟩ := writeColtab_spec s x (fold off s.cfg.colTabN) data mask
    exact exec_layerEntryWrite coltabAt (fun z => { z with coltab := (s.layer x).coltab }) (exec_cscrWr ..) hrun hx hy
      hread hframe

/-- Settles O19: the read answers the word at the folded offset. -/
theorem tileReadReturnsTheWord : Obligations.TileReadReturnsTheWord := by
  intro s off hrun
  refine ⟨fun l hl => ?_, fun l x hx => ?_⟩
  · rw [exec_tileRd, transact_layerWindow_none _ hrun hl]
  · rw [exec_tileRd, transact_layerWindow_some _ hrun hx]
    rfl

/-- Settles O21: each read answers the entry at the offset folded by its own table's size. -/
theorem scrollTableReadsReturnTheEntry : Obligations.ScrollTableReadsReturnTheEntry := by
  intro s off hrun
  refine ⟨fun l hl => ⟨?_, ?_⟩, fun l x hx => ⟨?_, ?_⟩⟩
  · rw [exec_rscrRd, transact_layerWindow_none _ hrun hl]
  · rw [exec_cscrRd, transact_layerWindow_none _ hrun hl]
  · rw [exec_rscrRd, transact_layerWindow_some _ hrun hx]
    rfl
  · rw [exec_cscrRd, transact_layerWindow_some _ hrun hx]
    rfl

/-! ## Open bus -/

/-- Settles O23: the value is the draw, whatever it is. -/
theorem openBusReadsReturnSomeWord : Obligations.OpenBusReadsReturnSomeWord := by
  intro s hrun
  refine ⟨fun b off hb => ?_, fun b off hb => ⟨Config.openBus s.draws, ?_⟩, ⟨Config.openBus s.draws, ?_⟩⟩
  · rw [exec_ctrlRd, transact_running s _ hrun, withBlockWindow_ge s _ hb, raiseFault]
  · rw [exec_ctrlRd, transact_running s _ hrun, withBlockWindow_lt s _ hb, returnDraw]
  · rw [exec_dmaRd, transact_running s _ hrun, returnDraw]

/-! ## The palette banks -/

/-- Settles O24: PAL.WR of bank 0 performs `writePal0` on the folded index. -/
theorem paletteBank0WriteMerges : Obligations.PaletteBank0WriteMerges := by
  intro s off data mask hrun
  obtain ⟨hread, hdirty, -⟩ := writePal0_spec s (fold off s.cfg.palN) data mask
  rw [exec_palWr0, transact_running s _ hrun]
  refine ⟨_, rfl, hread, ?_, rfl, rfl⟩
  rw [Bool.if_true_left]
  exact hdirty

/-- Settles O25: PAL.WR of bank 1 performs `writePal1` on the folded index, where the bank exists. -/
theorem paletteBank1WriteMerges : Obligations.PaletteBank1WriteMerges := by
  intro s off data mask hrun
  obtain ⟨hread, hdirty, -⟩ := writePal1_spec s (fold off s.cfg.palN) data mask
  rw [exec_palWr1]
  refine ⟨fun hfmt => transact_bank1_packed _ hrun hfmt, fun hfmt => ?_⟩
  refine ⟨_, transact_bank1_split _ hrun hfmt, hread, ?_, rfl, rfl⟩
  rw [Bool.if_true_left]
  exact hdirty

/-- Settles O26: each bank answers the word at the folded index. -/
theorem paletteReadsReturnTheWord : Obligations.PaletteReadsReturnTheWord := by
  intro s off hrun
  rw [exec_palRd0, exec_palRd1, transact_running s _ hrun]
  exact ⟨rfl, fun hfmt => transact_bank1_packed _ hrun hfmt, fun hfmt => transact_bank1_split _ hrun hfmt⟩

/-! ## Sprite RAM and its snapshot -/

/-- Settles O27: SPR.WR performs `writeSprram` on the folded word, and SPR.RD answers the word of SPRRAM there. -/
theorem spriteRamWritesAndReads : Obligations.SpriteRamWritesAndReads := by
  intro s off data mask hrun
  obtain ⟨hread, -⟩ := writeSprram_spec s (fold off s.cfg.sprRamWords) data mask
  rw [exec_sprWr, exec_sprRd, transact_running s _ hrun, transact_running s _ hrun]
  exact ⟨⟨_, rfl, hread, rfl, rfl⟩, rfl⟩

/-- Settles O28: DMA.WR performs `copySnapshot`. -/
theorem dmaCopiesTheWholeSpriteRam : Obligations.DmaCopiesTheWholeSpriteRam := by
  intro s hrun
  obtain ⟨hcopy, -⟩ := copySnapshot_spec s
  rw [exec_dmaWr, transact_running s _ hrun]
  exact ⟨_, rfl, fun w hw => (hcopy w).trans (if_pos hw), rfl, rfl⟩

end Sys2Proof.Machine
end

section
/-!
PROOFS. The tilemap renderer family, layer by layer: the scan functions (O33), the tile word (O34), the scroll mapping
(O35) and the layer micro-operations (O36-O40).
-/

namespace Sys2Proof.Machine

/-! ## Scan functions -/

/-- The offset of a cell lies in the layer's storage, and the cell is read back from it (R200-R204). -/
theorem cellOf_scan {b : Cfg} {lc : LayerCfg} (h : layerLegal b lc = true) {col row : Nat} (hc : col < lc.cols)
    (hr : row < lc.rows) : cellOf lc (scan lc col row) = (col, row) := by
  unfold cellOf scan
  cases hscan : lc.scan with
  | rowMajor =>
    have hpos : 0 < lc.cols := Nat.zero_lt_of_lt hc
    simp only [Nat.mod_eq_of_lt hc, Nat.add_comm (row * lc.cols), Nat.add_mul_div_right _ _ hpos,
      Nat.add_mul_mod_self_right, Nat.div_eq_of_lt hc, Nat.zero_add]
  | colMajor =>
    have hpos : 0 < lc.rows := Nat.zero_lt_of_lt hr
    simp only [Nat.add_comm (col * lc.rows), Nat.add_mul_div_right _ _ hpos,
      Nat.add_mul_mod_self_right, Nat.mod_eq_of_lt hr, Nat.div_eq_of_lt hr, Nat.zero_add]
  | fourPage =>
    obtain ⟨hcols, hrows⟩ := fourPage_of_legal h hscan
    simp only [scanFourPage, Prod.mk.injEq]
    omega

/-- The cell of an offset is one of the layer's, and its offset is that offset (R204). -/
theorem scan_cellOf {b : Cfg} {lc : LayerCfg} (h : layerLegal b lc = true) {o : Nat} (ho : o < cellsOf lc) :
    (cellOf lc o).1 < lc.cols ∧ (cellOf lc o).2 < lc.rows ∧ scan lc (cellOf lc o).1 (cellOf lc o).2 = o := by
  obtain ⟨hcols, hrows⟩ := grid_pos_of_legal h
  unfold cellsOf at ho
  unfold cellOf scan
  cases hscan : lc.scan with
  | rowMajor => exact ⟨Nat.mod_lt _ hcols, Nat.div_lt_of_lt_mul ho, Nat.div_add_mod' o lc.cols⟩
  | colMajor => exact ⟨Nat.div_lt_of_lt_mul (by rwa [Nat.mul_comm]), Nat.mod_lt _ hrows, Nat.div_add_mod' o lc.rows⟩
  | fourPage =>
    obtain ⟨ecols, erows⟩ := fourPage_of_legal h hscan
    rw [ecols, erows] at ho
    simp only [scanFourPage, ecols, erows]
    omega

/-- Settles O33: `cellOf` and `scan` undo each other on every legal layer. -/
theorem scanIsABijection : Obligations.ScanIsABijection := by
  intro c l hb lc
  have hlegal : layerLegal c lc = true := layerLegal_of_legal hb l
  exact ⟨fun _ _ hc hr => ⟨scan_lt_of_legal hlegal hc hr, cellOf_scan hlegal hc hr⟩, fun _ ho => scan_cellOf hlegal ho⟩

/-! ## The tile word -/

/-- Two runs of bits put together, the high one first. -/
theorem append_toNat {m n : Nat} (hi : BitVec m) (lo : BitVec n) : (hi ++ lo).toNat = hi.toNat * 2 ^ n + lo.toNat := by
  rw [BitVec.toNat_append, ← Nat.shiftLeft_add_eq_or_of_lt lo.isLt, Nat.shiftLeft_eq]

/-- The tile index of the BANKED decoder: bits 15:14 select one of four banks of 256 tiles (R208). -/
theorem decodeBanked_tileIndex (w : Word) :
    (decodeBanked w).tileIndex.toNat = w.toNat % 256 + 256 * (w.toNat / 16384) := by
  have hw := w.isLt
  have hbank : (w.extractLsb' 14 2).toNat = w.toNat / 16384 := (field_eq w 14 2).trans (by omega)
  have htile : (w.extractLsb' 0 8).toNat = w.toNat % 256 := (field_eq w 0 8).trans (by omega)
  rw [decodeBanked, BitVec.toNat_setWidth, append_toNat, hbank, htile]
  omega

theorem decodeBanked_colorGroup (w : Word) : (decodeBanked w).colorGroup.toNat = w.toNat / 256 % 8 := by
  have hgroup : (w.extractLsb' 8 3).toNat = w.toNat / 256 % 8 := field_eq w 8 3
  simp only [decodeBanked, BitVec.toNat_setWidth, hgroup]
  omega

theorem decodeSimple_tileIndex (w : Word) : (decodeSimple w).tileIndex.toNat = w.toNat % 4096 := by
  have htile : (decodeSimple w).tileIndex.toNat = w.toNat / 1 % 4096 := field_eq w 0 12
  rw [htile, Nat.div_one]

theorem decodeSimple_colorGroup (w : Word) : (decodeSimple w).colorGroup.toNat = w.toNat / 4096 := by
  have hw := w.isLt
  have hgroup : (decodeSimple w).colorGroup.toNat = w.toNat / 4096 % 16 := field_eq w 12 4
  omega

/-- Settles O34: the numbers by the four lemmas above, the flips and the priority bit as the decoders write them. -/
theorem tileWordDecodes : Obligations.TileWordDecodes := fun w =>
  ⟨⟨decodeSimple_tileIndex w, decodeSimple_colorGroup w, rfl, rfl, rfl⟩,
    decodeBanked_tileIndex w, decodeBanked_colorGroup w, rfl, rfl, rfl⟩

/-! ## Scroll mapping -/

/-- The scroll base by an `if` (R217, R218). -/
theorem scrollBase_eq (c : Cfg) (v : Word) : scrollBase c v = if c.scrollCombine = .add then v.toNat else 0 := by
  unfold scrollBase
  cases c.scrollCombine <;> rfl

/-- Settles O35: each mode is one branch of `scrollWith`, which names the one table it reads. -/
theorem scrollMappingFollowsTheMode : Obligations.ScrollMappingFollowsTheMode := by
  refine ⟨fun s l ux uy => ⟨fun hmode => ?_, fun hmode => ?_, fun hmode => ?_⟩, fun c lc x x' sc htables ux uy => ?_⟩
  · simp only [scrollMap, scrollWith, hmode, widthOf, heightOf]
  · simp only [scrollMap, scrollWith, hmode, widthOf, heightOf, scrollBase_eq]
  · simp only [scrollMap, scrollWith, hmode, widthOf, heightOf, scrollBase_eq]
  · obtain hmode | ⟨hmode, hrow⟩ | ⟨hmode, hcol⟩ := htables
    · simp only [scrollWith, hmode]
    · simp only [scrollWith, hmode, rowtabAt, hrow]
    · simp only [scrollWith, hmode, coltabAt, hcol]

/-! ## Harness layer arguments -/

section Argument

variable {s : State} {op : HarnessOp} {l : Nat} (f : LayerId → State → State)

theorem transact_layerArg_none (hrun : halted s = false) (hl : s.cfg.nl ≤ l) :
    transact (withLayerArg op l f) s = .next { s with fault := some (.badArg op l), resp := .silent } := by
  rw [transact_running s _ hrun, withLayerArg_none s f hl, raiseFault]

theorem transact_layerArg_some {x : LayerId} (hrun : halted s = false) (hx : layerOf s.cfg l = some x) :
    transact (withLayerArg op l f) s = .next (f x s) := by
  rw [transact_running s _ hrun, withLayerArg_some s f hx]

/-- A micro-operation on one layer `x`: `y` is what it makes of the layer, `put` undoes that in a layer as it was. -/
theorem exec_layerOp {i : Instr} {x : LayerId} {y : LayerState} (put : LayerState → LayerState)
    (hi : exec i s = transact (withLayerArg op l fun x t => respond .silent (f x t)) s) (hrun : halted s = false)
    (hx : layerOf s.cfg l = some x) (hy : f x s = s.setLayer x y) (hframe : put y = s.layer x) :
    ∃ t, exec i s = .next t ∧ t.layer x = y ∧ t.resp = .silent
      ∧ { t.setLayer x (put (t.layer x)) with resp := s.resp } = s := by
  refine ⟨respond .silent (s.setLayer x y), ?_, ?_, rfl, ?_⟩
  · rw [hi, transact_layerArg_some _ hrun hx, hy]
  · rw [respond_layer, State.layer_setLayer_same]
  · rw [respond_layer, State.layer_setLayer_same]
    exact respond_setLayer_restore .silent hframe

end Argument

/-! ## UPDATE -/

/-- Settles O36: H.UPDATE performs `updateLayer`, and `updateLayer_spec` says all it does. -/
theorem updateDecodesDirtyCells : Obligations.UpdateDecodesDirtyCells := by
  intro s hrun
  refine ⟨fun l hl => ?_, fun l x hx => ?_⟩
  · rw [exec_hUpdate, transact_layerArg_none _ hrun hl]
  · obtain ⟨y, hy, hinfo, hstale, hdirty, hframe⟩ := updateLayer_spec s x
    obtain ⟨t, ht, rfl, hresp, hrest⟩ := exec_layerOp _ (fun z => { z with
      info := (s.layer x).info, stale := (s.layer x).stale, dirty := (s.layer x).dirty }) (exec_hUpdate s l) hrun hx hy
      hframe
    refine ⟨t, ht, fun o ho => ?_, hresp, hrest⟩
    rw [hinfo, hstale, hdirty, if_pos ho, if_pos ho, if_pos ho]
    exact ⟨rfl, by simp, rfl⟩

/-! ## RENDER -/

/-- A position inside a cell of a legal layer: it lies in the layer, in that cell, at that place of the cell (R214). -/
theorem cellAt_of_cellOf {b : Cfg} {lc : LayerCfg} (h : layerLegal b lc = true) {o px py : Nat} (ho : o < cellsOf lc)
    (hx : px < lc.cw) (hy : py < lc.ch) :
    (cellOf lc o).1 * lc.cw + px < widthOf lc ∧ (cellOf lc o).2 * lc.ch + py < heightOf lc
      ∧ cellAt lc ((cellOf lc o).1 * lc.cw + px) ((cellOf lc o).2 * lc.ch + py) = o
      ∧ ((cellOf lc o).1 * lc.cw + px) % lc.cw = px ∧ ((cellOf lc o).2 * lc.ch + py) % lc.ch = py := by
  obtain ⟨hcol, hrow, hscan⟩ := scan_cellOf h ho
  have hdiv : ∀ {a q n : Nat}, q < n → (a * n + q) / n = a := fun {a q n} hq => by
    rw [Nat.mul_comm, Nat.mul_add_div (Nat.zero_lt_of_lt hq), Nat.div_eq_of_lt hq, Nat.add_zero]
  have hlt : ∀ {a q m n : Nat}, a < m → q < n → a * n + q < m * n := fun {a q m n} ha hq =>
    calc a * n + q < a * n + n := Nat.add_lt_add_left hq _
      _ = (a + 1) * n := (Nat.succ_mul a n).symm
      _ ≤ m * n := Nat.mul_le_mul_right n ha
  refine ⟨hlt hcol hx, hlt hrow hy, ?_, ?_, ?_⟩
  · rw [cellAt, hdiv hx, hdiv hy, hscan]
  · rw [Nat.mul_add_mod', Nat.mod_eq_of_lt hx]
  · rw [Nat.mul_add_mod', Nat.mod_eq_of_lt hy]

theorem splitClass_eq_front_iff {lc : LayerCfg} {bit : Bool} {pen : Pen} :
    splitClass lc bit pen = .front ↔ lc.split = true ∧ bit = true ∧ lc.splitPen.toNat ≤ pen.toNat := by
  simp [splitClass]

/-- Settles O37: H.RENDER performs `renderLayer`; the position of a cell's pixel names that cell, so `renderedPixel` is
LPIXinfo of its INFO if it is stale and the cached pixel if not. -/
theorem renderMaterialisesStaleCells : Obligations.RenderMaterialisesStaleCells := by
  intro s hb hrun
  refine ⟨fun l hl => ?_, fun l x hx => ?_⟩
  · rw [exec_hRender, transact_layerArg_none _ hrun hl]
  · obtain ⟨y, hy, hpcache, hstale, hframe⟩ := renderLayer_spec s x
    obtain ⟨t, ht, rfl, hresp, hrest⟩ := exec_layerOp _ (fun z => { z with
      pcache := (s.layer x).pcache, stale := (s.layer x).stale }) (exec_hRender s l) hrun hx hy hframe
    refine ⟨t, ht, fun o px py ho hpx hpy => ?_, fun o ho => (hstale o).trans (if_pos ho), hresp, hrest⟩
    obtain ⟨hlx, hly, hcell, hmx, hmy⟩ := cellAt_of_cellOf (layerLegal_of_legal hb x) ho hpx hpy
    simp only [hpcache _ _ hlx hly, renderedPixel, hcell, hmx, hmy]
    refine ⟨fun hst => ?_, fun hfresh => ?_⟩
    · rw [if_pos hst]
      exact ⟨rfl, rfl, splitClass_eq_front_iff⟩
    · rw [if_neg (Bool.eq_false_iff.mp hfresh)]

/-- A layer with no stale cell is rendered as it is (R232). -/
theorem renderLayer_of_fresh {s : State} {l : LayerId} (hb : boardLegal s.cfg = true)
    (hstale : (s.layer l).stale = noneMarked (cellsOf (s.cfg.layer l)))
    (hwf : Store.wf unlistedPixel (widthOf (s.cfg.layer l) * heightOf (s.cfg.layer l)) (s.layer l).pcache = true) :
    renderLayer l s = s := by
  have hfresh : ∀ o, o < cellsOf (s.cfg.layer l) → staleAt (s.layer l) o = false := fun o ho => by
    rw [staleAt, hstale, noneMarked, Store.read_tabulate, if_pos ho]
  have hpcache : (Store.tabulate unlistedPixel (widthOf (s.cfg.layer l) * heightOf (s.cfg.layer l)) fun k =>
      renderedPixel s.cfg (s.cfg.layer l) (s.layer l) (k % widthOf (s.cfg.layer l)) (k / widthOf (s.cfg.layer l)))
        = (s.layer l).pcache := by
    refine Store.ext_of_wf unlistedPixel _ _ _ (Store.wf_tabulate ..) hwf fun k => ?_
    rw [Store.read_tabulate]
    split
    case isTrue hk =>
      have hw : 0 < widthOf (s.cfg.layer l) := Nat.pos_of_mul_pos_right (Nat.zero_lt_of_lt hk)
      have hcell := cellAt_lt_of_legal (layerLegal_of_legal hb l) (Nat.mod_lt k hw) (Nat.div_lt_of_lt_mul hk)
      rw [renderedPixel, hfresh _ hcell, if_neg Bool.false_ne_true, pcacheAt, Nat.div_add_mod']
    case isFalse hk => exact (Store.read_of_wfFrom_ge _ _ 0 _ hwf (Nat.not_lt.mp hk)).symm
  have hlayer : renderLayer l s = s.setLayer l { s.layer l with
      pcache := (s.layer l).pcache, stale := (s.layer l).stale } := by
    rw [renderLayer, hpcache, ← hstale]
  rw [hlayer]
  exact State.setLayer_layer s l

/-- RENDER after RENDER changes nothing, a response in between or not (R232). -/
theorem renderLayer_renderLayer {s : State} (hb : boardLegal s.cfg = true) (l : LayerId) (r : Response) :
    renderLayer l (respond r (renderLayer l s)) = respond r (renderLayer l s) := by
  refine renderLayer_of_fresh hb ?_ ?_
  · rw [respond_layer, renderLayer, State.layer_setLayer_same]
    rfl
  · rw [respond_layer, renderLayer, State.layer_setLayer_same]
    exact Store.wf_tabulate ..

/-- Settles O38: a halted block and a fault leave the block halted; a performed RENDER leaves nothing stale. -/
theorem renderIsIdempotent : Obligations.RenderIsIdempotent := by
  intro s t l hb h
  obtain ⟨hrun, rfl⟩ | ⟨hhalt, rfl⟩ := transact_next s (exec_hRender s l ▸ h)
  case inr => exact h
  case inl =>
    cases hx : layerOf s.cfg l with
    | none =>
      refine exec_halted _ _ ?_
      rw [withLayerArg, hx]
      rfl
    | some x =>
      rw [withLayerArg_some s _ hx]
      have hrun' : halted (respond .silent (renderLayer x s)) = false := hrun
      have hx' : layerOf (respond .silent (renderLayer x s)).cfg l = some x := hx
      rw [exec_hRender, transact_layerArg_some _ hrun' hx', renderLayer_renderLayer hb]
      rfl

/-! ## DRAW -/

theorem passDraws_back_iff {lc : LayerCfg} {p : Pixel} :
    passDraws lc .back p = true ↔ lc.isOpaque = true ∨ p.pen ≠ lc.transPen := by
  simp [passDraws]

theorem passDraws_front_iff {lc : LayerCfg} {p : Pixel} :
    passDraws lc .front p = true ↔ p.cls = .front ∧ p.pen ≠ lc.transPen := by
  simp [passDraws]

/-- The flipped screen position, coordinate by coordinate (R222). -/
theorem flipMap_eq (c : Cfg) (flip : Bool) (x y : Nat) :
    flipMap c flip x y
      = (if flip = true then c.screenW - 1 - x else x, if flip = true then c.screenH - 1 - y else y) := by
  cases flip <;> rfl

/-- Settles O39: H.DRAW performs `drawLayer`, whose pass predicate is one disjunct of the statement's. -/
theorem drawBlitsThePass : Obligations.DrawBlitsThePass := by
  intro s pass hrun
  refine ⟨fun l hl => ?_, fun l x hx => ?_⟩
  · rw [exec_hDraw, transact_layerArg_none _ hrun hl]
  · obtain ⟨hcomp, -⟩ := drawLayer_spec s x pass
    refine ⟨respond .silent (drawLayer x pass s), ?_, fun X Y hX hY => ?_, rfl, rfl⟩
    · rw [exec_hDraw, transact_layerArg_some _ hrun hx]
    · intro ux uy p q draws
      have hshown : shownPixel s x X Y = q := by
        rw [shownPixel, flipMap_eq]
      have hdraws : draws ↔ passDraws (s.cfg.layer x) pass q = true := by
        cases pass with
        | back => simp [draws, passDraws_back_iff]
        | front => simp [draws, passDraws_front_iff]
      have hpixel : compAt (respond .silent (drawLayer x pass s)) X Y
          = if passDraws (s.cfg.layer x) pass q = true then q.idx else compAt s X Y := hshown ▸ hcomp X Y hX hY
      rw [hdraws, hpixel]
      exact ⟨fun h => if_pos h, fun h => if_neg h⟩

/-! ## MARK_ALL_DIRTY and SETFLIP -/

/-- Settles O40: the two perform `markAllDirty` and `setFlip`, each with its `_spec`. -/
theorem markAllDirtyAndSetflip : Obligations.MarkAllDirtyAndSetflip := by
  intro s f hrun
  refine ⟨fun l hl => ⟨?_, ?_⟩, fun l x hx => ⟨?_, ?_⟩⟩
  · rw [exec_hMarkalldirty, transact_layerArg_none _ hrun hl]
  · rw [exec_hSetflip, transact_layerArg_none _ hrun hl]
  · obtain ⟨y, hy, hdirty, hframe⟩ := markAllDirty_spec s x
    obtain ⟨t, ht, rfl, hresp, hrest⟩ := exec_layerOp _ (fun z => { z with dirty := (s.layer x).dirty })
      (exec_hMarkalldirty s l) hrun hx hy hframe
    exact ⟨t, ht, fun o _ => hdirty o, hresp, hrest⟩
  · obtain ⟨y, hy, hflip, hdirty, hframe⟩ := setFlip_spec s x f
    obtain ⟨t, ht, rfl, hresp, hrest⟩ := exec_layerOp (fun x t => setFlip x f t)
      (fun z => { z with flip := (s.layer x).flip, dirty := (s.layer x).dirty }) (exec_hSetflip s l f) hrun hx hy hframe
    exact ⟨t, ht, hflip, fun o _ => hdirty o, hresp, hrest⟩

end Sys2Proof.Machine
end

section
/-!
PROOFS. The tilemap renderer family in a frame: the state a frame is composited from, what its draws leave and what is
published of it (O58); the flip state that every word but H.SETFLIP keeps (O16); and FRAMEFN spelled out (O57).
-/

namespace Sys2Proof.Machine

/-! ## An operation on every layer -/

/-- An operation on every layer of a legal board, when it replaces its layer by one that stands in the relation `R` to it:
every layer ends so related to its old state. -/
theorem forLayers_layer_rel {s : State} (hb : boardLegal s.cfg = true) {f : LayerId → State → State}
    (R : LayerId → LayerState → LayerState → Prop)
    (h : ∀ l t, t.cfg = s.cfg → t.cr = s.cr → ∃ x, f l t = t.setLayer l x ∧ R l (t.layer l) x) (k : LayerId) :
    R k (s.layer k) ((forLayers f s).layer k) := by
  obtain ⟨x0, e0, h0⟩ := h .bg s rfl rfl
  obtain ⟨x1, e1, h1⟩ := h .mida (s.setLayer .bg x0) rfl rfl
  obtain ⟨x2, e2, h2⟩ := h .midb ((s.setLayer .bg x0).setLayer .mida x1) rfl rfl
  obtain ⟨x3, e3, h3⟩ := h .fg (((s.setLayer .bg x0).setLayer .mida x1).setLayer .midb x2) rfl rfl
  have hall : forLayers f s = (((s.setLayer .bg x0).setLayer .mida x1).setLayer .midb x2).setLayer .fg x3 := by
    simp only [forLayers, layersOf_legal hb, List.foldl_cons, List.foldl_nil, e0, e1, e2, e3]
  rw [hall]
  cases k with
  | bg => exact h0
  | mida => exact h1
  | midb => exact h2
  | fg => exact h3

/-! ## What the screen shows of a layer: its FLIP and its SCR -/

/-- FLIP and SCR of every layer. -/
def lookOf (s : State) (l : LayerId) : Bool × Scroll := ((s.layer l).flip, (s.layer l).scr)

theorem lookOf_setLayer_frame {s : State} {l : LayerId} {x : LayerState} (hflip : x.flip = (s.layer l).flip)
    (hscr : x.scr = (s.layer l).scr) : lookOf (s.setLayer l x) = lookOf s := by
  funext k
  rw [lookOf, lookOf, State.layer_setLayer]
  split
  case isTrue hk => rw [hk, hflip, hscr]
  case isFalse => rfl

theorem lookOf_forLayers {f : LayerId → State → State} (hf : ∀ l t, lookOf (f l t) = lookOf t) (s : State) :
    lookOf (forLayers f s) = lookOf s :=
  forLayers_induct (P := fun t => lookOf t = lookOf s) s f rfl fun l t ht => (hf l t).trans ht

theorem lookOf_updateLayer (l : LayerId) (s : State) : lookOf (updateLayer l s) = lookOf s :=
  lookOf_setLayer_frame rfl rfl

theorem lookOf_renderLayer (l : LayerId) (s : State) : lookOf (renderLayer l s) = lookOf s :=
  lookOf_setLayer_frame rfl rfl

theorem lookOf_invalidate (l : LayerId) (s : State) : lookOf (invalidate l s) = lookOf s :=
  lookOf_setLayer_frame rfl rfl

theorem lookOf_recompute (s : State) : lookOf (recompute s) = lookOf s := by
  unfold recompute
  split <;> rfl

theorem lookOf_stepUpdate (s : State) : lookOf (stepUpdate s) = lookOf s :=
  lookOf_forLayers (fun l t => (lookOf_renderLayer l _).trans (lookOf_updateLayer l t)) s

theorem lookOf_stepPalette (s : State) : lookOf (stepPalette s) = lookOf s := by
  unfold stepPalette
  split
  · rw [lookOf_forLayers lookOf_renderLayer, lookOf_forLayers lookOf_invalidate, lookOf_recompute]
  · exact lookOf_recompute s

/-! ## The steps of a frame up to its draws -/

/-- Steps 1 to 3: the flip bit polled, the scroll latched, the caches brought up to date (R381-R383). -/
def sampleFrame (s : State) : State := stepUpdate (stepScroll (stepFlip s))

/-- Steps 1 to 4: the state that a frame is composited from (R381-R385). -/
def prepareFrame (s : State) : State := stepPalette (stepAccumulate (sampleFrame s))

theorem renderFrame_eq (s : State) : renderFrame s = countFrame (stepOutput (stepComposite (prepareFrame s))) := rfl

/-- What every micro-operation keeps, and the sequencer's own FLIP_PREV leaves, steps 1 to 3 keep. -/
theorem sampleFrame_keeps {P : State → Prop} {s : State} (hmicro : ∀ {t u : State}, MicroOp t u → P t → P u)
    (hflip : ∀ t b, P t → P { t with flipPrev := b }) (h : P s) : P (sampleFrame s) := by
  have hscroll : P (stepScroll (stepFlip s)) :=
    forLayers_induct _ _ (stepFlip_keeps hmicro hflip h) fun l _ ht => hmicro (.latchscroll l) ht
  exact stepUpdate_keeps hmicro hscroll

theorem storageOf_forLayers {f : LayerId → State → State} (hf : ∀ l t, MicroOp t (f l t)) (s : State) :
    storageOf (forLayers f s) = storageOf s :=
  forLayers_induct (P := fun t => storageOf t = storageOf s) s f rfl fun l t ht => (hf l t).storageOf_eq.trans ht

/-- The flip poll writes FLIP_PREV alone of the storage (R381). -/
theorem storageOf_stepFlip (s : State) : storageOf (stepFlip s) = storageOf { s with flipPrev := flipBit s } := by
  unfold stepFlip
  split
  case isTrue hsame => rw [hsame]
  case isFalse =>
    exact congrArg (fun a : Storage => { a with flipPrev := flipBit s })
      (storageOf_forLayers (fun l t => .setflip l (flipBit s)) s)

theorem storageOf_stepScroll (s : State) : storageOf (stepScroll s) = storageOf s :=
  storageOf_forLayers (fun l _ => .latchscroll l) s

theorem storageOf_stepUpdate (s : State) : storageOf (stepUpdate s) = storageOf s :=
  stepUpdate_keeps (P := fun t => storageOf t = storageOf s) (fun hu ht => hu.storageOf_eq.trans ht) rfl

theorem storageOf_stepPalette (s : State) : storageOf (stepPalette s) = storageOf s :=
  stepPalette_keeps (P := fun t => storageOf t = storageOf s) (fun hu ht => hu.storageOf_eq.trans ht) rfl

/-- After the flip poll every layer is flipped as polled, if all were flipped as polled before (R381). -/
theorem stepFlip_flip {s : State} (hb : boardLegal s.cfg = true) (hsync : FlipSync s) (l : LayerId) :
    ((stepFlip s).layer l).flip = flipBit s := by
  unfold stepFlip
  split
  case isTrue hsame => rw [hsync l, hsame]
  case isFalse =>
    refine forLayers_layer_rel hb (f := fun l t => setFlip l (flipBit s) t) (fun _ _ y => y.flip = flipBit s)
      (fun l t _ _ => ?_) l
    obtain ⟨x, hx, hflip, -, -⟩ := setFlip_spec t l (flipBit s)
    exact ⟨x, hx, hflip⟩

theorem lookOf_stepScroll {s : State} (hb : boardLegal s.cfg = true) (l : LayerId) :
    lookOf (stepScroll s) l = ((s.layer l).flip, resolveScroll l s) := by
  refine forLayers_layer_rel hb (f := latchScroll) (fun l x y => (y.flip, y.scr) = (x.flip, resolveScroll l s))
    (fun l t hcfg hcr => ⟨_, latchScroll_spec t l, ?_⟩) l
  rw [resolveScroll_eq l hcfg hcr]

/-- A state inside a frame of `s` after its first two steps: the storage as at the start but for FLIP_PREV, every layer
flipped as the control word says and scrolled as the control words say. -/
structure FrameLook (s u : State) : Prop where
  storage : storageOf u = storageOf { s with flipPrev := flipBit s }
  look : ∀ l, lookOf u l = (flipBit s, resolveScroll l s)

namespace FrameLook

variable {s t u : State}

/-- What leaves the storage, FLIP and SCR leaves the look. -/
protected theorem congr (h : FrameLook s t) (hstorage : storageOf u = storageOf t) (hlook : lookOf u = lookOf t) :
    FrameLook s u where
  storage := hstorage.trans h.storage
  look l := (congrFun hlook l).trans (h.look l)

protected theorem stepScroll (hb : boardLegal s.cfg = true) (hsync : FlipSync s) :
    FrameLook s (stepScroll (stepFlip s)) := by
  have hstorage := storageOf_stepFlip s
  have hcfg : (stepFlip s).cfg = s.cfg := congrArg Storage.cfg hstorage
  refine ⟨(storageOf_stepScroll _).trans hstorage, fun l => ?_⟩
  rw [lookOf_stepScroll (hcfg ▸ hb), stepFlip_flip hb hsync, resolveScroll_eq l hcfg (congrArg Storage.cr hstorage)]

protected theorem sampleFrame (hb : boardLegal s.cfg = true) (hsync : FlipSync s) : FrameLook s (sampleFrame s) :=
  (FrameLook.stepScroll hb hsync).congr (storageOf_stepUpdate _) (lookOf_stepUpdate _)

protected theorem stepAccumulate (h : FrameLook s u) : FrameLook s (stepAccumulate u) := h.congr rfl rfl

protected theorem stepPalette (h : FrameLook s u) : FrameLook s (stepPalette u) :=
  h.congr (storageOf_stepPalette u) (lookOf_stepPalette u)

protected theorem prepareFrame (hb : boardLegal s.cfg = true) (hsync : FlipSync s) : FrameLook s (prepareFrame s) :=
  (FrameLook.sampleFrame hb hsync).stepAccumulate.stepPalette

theorem cfg (h : FrameLook s u) : u.cfg = s.cfg := congrArg Storage.cfg h.storage

theorem flipPrev (h : FrameLook s u) : u.flipPrev = flipBit s := congrArg Storage.flipPrev h.storage

theorem flip (h : FrameLook s u) (l : LayerId) : (u.layer l).flip = flipBit s := congrArg Prod.fst (h.look l)

theorem scr (h : FrameLook s u) (l : LayerId) : (u.layer l).scr = resolveScroll l s := congrArg Prod.snd (h.look l)

theorem tile (h : FrameLook s u) (l : LayerId) : (u.layer l).tile = (s.layer l).tile :=
  congrFun (congrArg Storage.tile h.storage) l

theorem rowtab (h : FrameLook s u) (l : LayerId) : (u.layer l).rowtab = (s.layer l).rowtab :=
  congrFun (congrArg Storage.rowtab h.storage) l

theorem coltab (h : FrameLook s u) (l : LayerId) : (u.layer l).coltab = (s.layer l).coltab :=
  congrFun (congrArg Storage.coltab h.storage) l

theorem snap (h : FrameLook s u) : u.snap = s.snap := congrArg Storage.snap h.storage

theorem pstate (h : FrameLook s u) : u.pstate = s.pstate := congrArg Storage.pstate h.storage

theorem frameCnt (h : FrameLook s u) : u.frameCnt = s.frameCnt := congrArg Storage.frameCnt h.storage

/-- The scroll map of the state is that of the storage (R222, R390). -/
theorem scrollMap_eq (h : FrameLook s u) (l : LayerId) (ux uy : Nat) :
    scrollMap u l ux uy = scrollWith s.cfg (s.cfg.layer l) (s.layer l) (resolveScroll l s) ux uy := by
  simp only [scrollMap, scrollWith, h.scr, h.cfg, rowtabAt, coltabAt, h.rowtab, h.coltab]

end FrameLook

/-! ## Clean caches -/

/-- No cell of any layer is dirty or stale. -/
def CachesClean (s : State) : Prop :=
  ∀ l o, o < cellsOf (s.cfg.layer l) → dirtyAt (s.layer l) o = false ∧ staleAt (s.layer l) o = false

/-- Step 3 leaves every cell clean (R228, R229, R383). -/
theorem cachesClean_stepUpdate {s : State} (hb : boardLegal s.cfg = true) : CachesClean (stepUpdate s) := by
  intro l
  have hcfg : (stepUpdate s).cfg = s.cfg := congrArg Storage.cfg (storageOf_stepUpdate s)
  rw [hcfg]
  refine forLayers_layer_rel hb (f := fun l t => renderLayer l (updateLayer l t))
    (fun l _ y => ∀ o, o < cellsOf (s.cfg.layer l) → dirtyAt y o = false ∧ staleAt y o = false)
    (fun l t ht _ => ?_) l
  obtain ⟨x, hx, -, -, hdirty, -⟩ := updateLayer_spec t l
  obtain ⟨y, hy, -, hstale, hframe⟩ := renderLayer_spec (t.setLayer l x) l
  refine ⟨y, by rw [hx, hy, State.setLayer_setLayer], fun o ho => ⟨?_, ?_⟩⟩
  · have hkept : y.dirty = x.dirty := by
      rw [State.layer_setLayer_same] at hframe
      rw [← hframe]
    rw [dirtyAt, hkept]
    exact (hdirty o).trans (if_pos (ht ▸ ho))
  · exact (hstale o).trans (if_pos (ht ▸ ho))

/-- RENDER of every layer cleans the caches of cells that are not dirty (R229). -/
theorem cachesClean_renderLayers {s : State} (hb : boardLegal s.cfg = true)
    (hdirty : ∀ l o, o < cellsOf (s.cfg.layer l) → dirtyAt (s.layer l) o = false) :
    CachesClean (forLayers renderLayer s) := by
  intro l o
  have hcfg : (forLayers renderLayer s).cfg = s.cfg :=
    congrArg Storage.cfg (storageOf_forLayers (fun l _ => .render l) s)
  rw [hcfg]
  intro ho
  obtain ⟨hkept, hfresh⟩ := forLayers_layer_rel hb (f := renderLayer)
    (fun l x y => y.dirty = x.dirty ∧ ∀ o, o < cellsOf (s.cfg.layer l) → staleAt y o = false)
    (fun l t ht _ => by
      obtain ⟨y, hy, -, hstale, hframe⟩ := renderLayer_spec t l
      exact ⟨y, hy, by rw [← hframe], fun o ho => (hstale o).trans (if_pos (ht ▸ ho))⟩) l
  refine ⟨?_, hfresh o ho⟩
  rw [dirtyAt, hkept]
  exact hdirty l o ho

theorem forLayers_invalidate_dirty {s : State} (hb : boardLegal s.cfg = true) (l : LayerId) :
    ((forLayers invalidate s).layer l).dirty = (s.layer l).dirty := by
  refine forLayers_layer_rel hb (fun _ x y => y.dirty = x.dirty) (fun l t _ _ => ?_) l
  obtain ⟨y, hy, -, hframe⟩ := invalidate_spec t l
  exact ⟨y, hy, by rw [← hframe]⟩

/-- RECOMPUTE leaves the layers (R272). -/
theorem recompute_layer (s : State) (l : LayerId) : (recompute s).layer l = s.layer l := by
  unfold recompute
  split <;> rfl

/-- Step 4 leaves clean caches clean: what it invalidates it renders again (R385). -/
theorem cachesClean_stepPalette {s : State} (hb : boardLegal s.cfg = true) (hclean : CachesClean s) :
    CachesClean (stepPalette s) := by
  have hrec : (recompute s).cfg = s.cfg := congrArg Storage.cfg (MicroOp.recompute (s := s)).storageOf_eq
  have hinv : (forLayers invalidate (recompute s)).cfg = s.cfg :=
    (congrArg Storage.cfg (storageOf_forLayers (fun l _ => .invalidate l) (recompute s))).trans hrec
  unfold stepPalette
  split
  case isTrue =>
    refine cachesClean_renderLayers (hinv ▸ hb) fun l o ho => ?_
    rw [dirtyAt, forLayers_invalidate_dirty (hrec ▸ hb), recompute_layer]
    exact (hclean l o (hinv ▸ ho)).1
  case isFalse =>
    intro l o ho
    rw [recompute_layer]
    exact hclean l o (hrec ▸ ho)

/-! ## The caches a frame is composited from -/

/-- A state inside a frame of `s` from its third step on: the caches follow the storage at the start of the frame. -/
structure FrameReady (s u : State) : Prop extends FrameLook s u where
  coherent : Coherent u
  clean : CachesClean u

namespace FrameReady

variable {s u : State}

protected theorem sampleFrame (hb : boardLegal s.cfg = true) (hsync : FlipSync s) (hcoh : Coherent s) :
    FrameReady s (sampleFrame s) := by
  have hlook := FrameLook.stepScroll hb hsync
  exact
    { FrameLook.sampleFrame hb hsync with
      coherent := sampleFrame_keeps (fun hu ht => Coherent.microOp ht hu) (fun _ _ ht => ht.congr rfl fun _ => rfl) hcoh
      clean := cachesClean_stepUpdate (hlook.cfg ▸ hb) }

protected theorem stepAccumulate (h : FrameReady s u) : FrameReady s (stepAccumulate u) :=
  { h.toFrameLook.stepAccumulate with coherent := h.coherent.congr rfl fun _ => rfl, clean := h.clean }

protected theorem stepPalette (hb : boardLegal s.cfg = true) (h : FrameReady s u) : FrameReady s (stepPalette u) :=
  { h.toFrameLook.stepPalette with
    coherent := stepPalette_keeps (fun hu ht => Coherent.microOp ht hu) h.coherent
    clean := cachesClean_stepPalette (h.cfg ▸ hb) h.clean }

protected theorem prepareFrame (hb : boardLegal s.cfg = true) (hsync : FlipSync s) (hcoh : Coherent s) :
    FrameReady s (prepareFrame s) :=
  ((FrameReady.sampleFrame hb hsync hcoh).stepAccumulate).stepPalette hb

/-- A draw writes COMP only. -/
protected theorem setComp (h : FrameReady s u) (m : Store Nat) : FrameReady s { u with comp := m } :=
  { h.toFrameLook.congr rfl rfl with coherent := h.coherent.congr rfl fun _ => rfl, clean := h.clean }

/-- INFO is the decoded tile word of the storage (R233). -/
theorem infoAt_eq (h : FrameReady s u) (l : LayerId) {o : Nat} (ho : o < cellsOf (s.cfg.layer l)) :
    infoAt (u.layer l) o = decodeInfo (s.cfg.layer l).dec (tileAt (s.layer l) o) := by
  rw [← h.cfg] at ho ⊢
  rw [(h.coherent l).info o ho (h.clean l o ho).1, tileAt, h.tile, tileAt]

/-- PCACHE is the layer pixel of the storage (R233). -/
theorem pcacheAt_eq (hb : boardLegal s.cfg = true) (h : FrameReady s u) (l : LayerId) {lx ly : Nat}
    (hx : lx < widthOf (s.cfg.layer l)) (hy : ly < heightOf (s.cfg.layer l)) :
    pcacheAt (s.cfg.layer l) (u.layer l) lx ly = lpix s.cfg (s.cfg.layer l) (s.layer l) lx ly := by
  have ho := cellAt_lt_of_legal (layerLegal_of_legal hb l) hx hy
  have hcache := (h.coherent l).cache lx ly
  rw [h.cfg] at hcache
  have hfresh := (h.clean l (cellAt (s.cfg.layer l) lx ly) (h.cfg ▸ ho)).2
  rw [hcache hx hy hfresh, h.infoAt_eq l ho, lpix]

end FrameReady

/-! ## The draws of a frame -/

/-- SPRDRAW's writes are a function of the board, the snapshot and the frame counter (R300-R319). -/
theorem spriteWrites_eq {s u : State} (hcfg : u.cfg = s.cfg) (hsnap : u.snap = s.snap) (hcnt : u.frameCnt = s.frameCnt)
    (flip : Bool) (pass : SprPass) : spriteWrites u flip pass = spriteWrites s flip pass := by
  have hsame : { s with cfg := u.cfg, snap := u.snap, frameCnt := u.frameCnt } = s := by rw [hcfg, hsnap, hcnt]
  calc spriteWrites u flip pass
      = spriteWrites { s with cfg := u.cfg, snap := u.snap, frameCnt := u.frameCnt } flip pass := rfl
    _ = spriteWrites s flip pass := by rw [hsame]

/-- A screen position's flipped position is on the screen (R222). -/
theorem flipMap_lt {c : Cfg} (flip : Bool) {x y : Nat} (hx : x < c.screenW) (hy : y < c.screenH) :
    (flipMap c flip x y).1 < c.screenW ∧ (flipMap c flip x y).2 < c.screenH := by
  cases flip
  · exact ⟨hx, hy⟩
  · exact ⟨by simp only [flipMap, if_true]; omega, by simp only [flipMap, if_true]; omega⟩

/-- The layer position that a frame of `s` samples at screen position (x, y) (R222, R390). -/
def samplePos (s : State) (l : LayerId) (x y : Nat) : Nat × Nat :=
  let u := flipMap s.cfg (flipBit s) x y
  scrollWith s.cfg (s.cfg.layer l) (s.layer l) (resolveScroll l s) u.1 u.2

/-- The decoded tile word of the cell that a frame of `s` samples at screen position (x, y) (R214). -/
def sampleInfo (s : State) (l : LayerId) (x y : Nat) : TileInfo :=
  decodeInfo (s.cfg.layer l).dec
    (tileAt (s.layer l) (cellAt (s.cfg.layer l) (samplePos s l x y).1 (samplePos s l x y).2))

/-- The layer pixel that a frame of `s` samples at screen position (x, y). -/
def samplePixel (s : State) (l : LayerId) (x y : Nat) : Pixel :=
  lpix s.cfg (s.cfg.layer l) (s.layer l) (samplePos s l x y).1 (samplePos s l x y).2

theorem passIndex_layer (s : State) (l : LayerId) (pass : LayerPass) (x y c : Nat) :
    passIndex s x y (.layer l pass) c
      = if passDraws (s.cfg.layer l) pass (samplePixel s l x y) = true then (samplePixel s l x y).idx else c := rfl

theorem passIndex_sprites (s : State) (pass : SprPass) (x y c : Nat) :
    passIndex s x y (.sprites pass) c = lastWrite (spriteWrites s (flipBit s) pass) (screenKey s.cfg x y) c := rfl

namespace FrameReady

variable {s u : State}

/-- The cached pixel on show is the sampled layer pixel (R223, R390). -/
theorem shownPixel_eq (hb : boardLegal s.cfg = true) (h : FrameReady s u) (l : LayerId) (x y : Nat) :
    shownPixel u l x y = samplePixel s l x y := by
  have hpos : scrollMap u l (flipMap u.cfg (u.layer l).flip x y).1 (flipMap u.cfg (u.layer l).flip x y).2
      = samplePos s l x y := by
    rw [h.scrollMap_eq, h.cfg, h.flip, samplePos]
  obtain ⟨hx, hy⟩ := scrollWith_lt_of_legal (layerLegal_of_legal hb l) s.cfg (s.layer l) (resolveScroll l s)
    (flipMap s.cfg (flipBit s) x y).1 (flipMap s.cfg (flipBit s) x y).2
  rw [shownPixel, hpos, h.cfg]
  exact h.pcacheAt_eq hb l hx hy

/-- One draw makes of a pixel what FRAMEFN's pass makes of it (R386, R390). -/
theorem compAt_runPass (hb : boardLegal s.cfg = true) (h : FrameReady s u) {x y : Nat} (hx : x < s.cfg.screenW)
    (hy : y < s.cfg.screenH) (p : FramePass) :
    compAt (runPass p u) x y = passIndex s x y p (compAt u x y) := by
  cases p with
  | layer l pass =>
    obtain ⟨hcomp, -⟩ := drawLayer_spec u l pass
    rw [passIndex_layer, runPass, hcomp x y (h.cfg ▸ hx) (h.cfg ▸ hy), h.shownPixel_eq hb, h.cfg]
  | sprites pass =>
    obtain ⟨hcomp, -⟩ := drawSprites_spec u pass
    have hwrites := spriteWrites_eq h.cfg h.snap h.frameCnt (flipBit s) pass
    calc compAt (drawSprites pass u) x y
        = lastWrite (spriteWrites u u.flipPrev pass) (screenKey u.cfg x y) (compAt u x y) := hcomp _
      _ = passIndex s x y (.sprites pass) (compAt u x y) := by rw [passIndex_sprites, h.flipPrev, hwrites, h.cfg]

theorem compAt_runPasses (hb : boardLegal s.cfg = true) (h : FrameReady s u) {x y : Nat} (hx : x < s.cfg.screenW)
    (hy : y < s.cfg.screenH) (ps : List FramePass) :
    compAt (ps.foldl (fun acc p => runPass p acc) u) x y
      = ps.foldl (fun c p => passIndex s x y p c) (compAt u x y) := by
  induction ps generalizing u with
  | nil => rfl
  | cons p rest ih =>
    obtain ⟨m, hm⟩ := runPass_eq u p
    have hready : FrameReady s (runPass p u) := hm ▸ h.setComp m
    rw [List.foldl_cons, List.foldl_cons, ih hready, h.compAt_runPass hb hx hy]

/-- Step 5 leaves the index that FRAMEFN takes the colour of (R386, R390). -/
theorem compAt_stepComposite (hb : boardLegal s.cfg = true) (h : FrameReady s u) {x y : Nat} (hx : x < s.cfg.screenW)
    (hy : y < s.cfg.screenH) : compAt (stepComposite u) x y = frameIndex s x y := by
  have hmid : midLayers u = midLayers s := by rw [midLayers, midLayers, h.cfg, h.pstate]
  have hfill : FrameReady s (fillBackdrop u) := h.setComp _
  obtain ⟨hback, -⟩ := fillBackdrop_spec u
  rw [stepComposite, hmid, hfill.compAt_runPasses hb hx hy, hback x y (h.cfg ▸ hx) (h.cfg ▸ hy), h.cfg, frameIndex]

end FrameReady

/-! ## Every colour a frame shows is accumulated and published -/

/-- The last write of a list is one of its values, or there was none (R319). -/
theorem lastWrite_eq_or_mem (ws : List (Nat × Nat)) (k c : Nat) :
    lastWrite ws k c = c ∨ ∃ w ∈ ws, lastWrite ws k c = w.2 := by
  induction ws generalizing c with
  | nil => exact .inl rfl
  | cons w rest ih =>
    rw [lastWrite_cons]
    obtain hkept | ⟨v, hv, hlast⟩ := ih (if w.1 = k then w.2 else c)
    · rw [hkept]
      split
      · exact .inr ⟨w, List.mem_cons_self, rfl⟩
      · exact .inl rfl
    · exact .inr ⟨v, List.mem_cons_of_mem _ hv, hlast⟩

theorem spriteCell_color (s : State) (flip : Bool) (e k : Nat) : (spriteCell s flip e k).color = entryColor s e := by
  cases flip <;> rfl

/-- Every write of SPRDRAW lies in the colour group of a live entry (R271, R308). -/
theorem spriteWrites_snd_mem {s : State} {flip : Bool} {pass : SprPass} {w : Nat × Nat}
    (hw : w ∈ spriteWrites s flip pass) : ∃ e ∈ liveEntries s, w.2 ∈ spriteGroup s.cfg (entryColor s e) := by
  simp only [spriteWrites, List.mem_flatMap, mem_cellWrites, pixelWrite_eq_some, spriteCells, List.mem_map] at hw
  obtain ⟨e, he, q, ⟨k, -, rfl⟩, px, py, -, -, -, rfl⟩ := hw
  refine ⟨e, drawnEntries_subset s pass he, ?_⟩
  rw [spriteCell_color]
  exact List.mem_map.mpr ⟨_, List.mem_range.mpr (cellPen s.cfg (spriteCell s flip e k) px py).isLt, rfl⟩

/-- The index of a layer pixel lies in the colour group of its cell (R212, R271). -/
theorem lpix_idx_mem (c : Cfg) (lc : LayerCfg) (x : LayerState) (lx ly : Nat) :
    (lpix c lc x lx ly).idx ∈ layerGroup c lc (decodeInfo lc.dec (tileAt x (cellAt lc lx ly))).colorGroup :=
  List.mem_map.mpr ⟨_, List.mem_range.mpr (lpix c lc x lx ly).pen.isLt, rfl⟩

/-- The cell that a screen position shows is visible (R227). -/
theorem mem_visibleCells {s : State} (l : LayerId) {x y : Nat} (hx : x < s.cfg.screenW) (hy : y < s.cfg.screenH) :
    cellAt (s.cfg.layer l) (scrollMap s l x y).1 (scrollMap s l x y).2 ∈ visibleCells s l := by
  obtain ⟨hmod, hdiv⟩ := screenKey_mod_div (y := y) hx
  refine List.mem_dedup.mpr (List.mem_map.mpr ⟨screenKey s.cfg x y, List.mem_range.mpr (screenKey_lt hx hy), ?_⟩)
  rw [hmod, hdiv]

theorem mem_layersOf {c : Cfg} (h : boardLegal c = true) (l : LayerId) : l ∈ layersOf c := by
  rw [layersOf_legal h]
  cases l <;> decide

/-- The accumulated indices: a visible cell's group, a live entry's group, or the backdrop (R271). -/
theorem mem_accumulated {s : State} {i : Nat} :
    i ∈ accumulated s ↔
      (∃ l ∈ layersOf s.cfg, ∃ o ∈ visibleCells s l, i ∈ layerGroup s.cfg (s.cfg.layer l) (infoAt (s.layer l) o).colorGroup)
        ∨ (∃ e ∈ liveEntries s, i ∈ spriteGroup s.cfg (entryColor s e)) ∨ i = s.cfg.backdrop := by
  simp only [accumulated, List.mem_append, List.mem_flatMap, List.mem_singleton, or_assoc]

namespace FrameReady

variable {s u : State}

/-- What a pass of FRAMEFN draws is accumulated (R271, R390). -/
theorem passIndex_mem (hb : boardLegal s.cfg = true) (h : FrameReady s u) {x y : Nat} (hx : x < s.cfg.screenW)
    (hy : y < s.cfg.screenH) (p : FramePass) {c : Nat} (hc : c ∈ accumulated u) :
    passIndex s x y p c ∈ accumulated u := by
  cases p with
  | layer l pass =>
    rw [passIndex_layer]
    split
    case isFalse => exact hc
    case isTrue =>
      obtain ⟨hux, huy⟩ := flipMap_lt (flipBit s) hx hy
      have hvis := mem_visibleCells (s := u) l (h.cfg ▸ hux) (h.cfg ▸ huy)
      rw [h.scrollMap_eq, h.cfg] at hvis
      obtain ⟨hlx, hly⟩ := scrollWith_lt_of_legal (layerLegal_of_legal hb l) s.cfg (s.layer l) (resolveScroll l s)
        (flipMap s.cfg (flipBit s) x y).1 (flipMap s.cfg (flipBit s) x y).2
      refine mem_accumulated.mpr (.inl ⟨l, mem_layersOf (h.cfg ▸ hb) l, _, hvis, ?_⟩)
      rw [h.infoAt_eq l (cellAt_lt_of_legal (layerLegal_of_legal hb l) hlx hly), h.cfg]
      exact lpix_idx_mem _ _ _ _ _
  | sprites pass =>
    rw [passIndex_sprites, ← spriteWrites_eq h.cfg h.snap h.frameCnt]
    obtain hkept | ⟨w, hw, hlast⟩ := lastWrite_eq_or_mem (spriteWrites u (flipBit s) pass) (screenKey s.cfg x y) c
    · rwa [hkept]
    · rw [hlast]
      exact mem_accumulated.mpr (.inr (.inl (spriteWrites_snd_mem hw)))

/-- The index FRAMEFN takes the colour of is accumulated. -/
theorem frameIndex_mem (hb : boardLegal s.cfg = true) (h : FrameReady s u) {x y : Nat} (hx : x < s.cfg.screenW)
    (hy : y < s.cfg.screenH) : frameIndex s x y ∈ accumulated u := by
  have hback : s.cfg.backdrop ∈ accumulated u := mem_accumulated.mpr (.inr (.inr (by rw [h.cfg])))
  exact List.foldlRecOn (motive := fun c => c ∈ accumulated u) _ _ hback fun c hc p _ => h.passIndex_mem hb hx hy p hc

end FrameReady

/-- RECOMPUTE leaves every used entry published, whether it runs or finds nothing to do (R272, R276). -/
theorem pubAt_recompute {s : State} (h : PubCoherent s) {i : Nat} (hi : i < s.cfg.palN) (hused : usedAt s i = true) :
    pubAt (recompute s) i = rgbOf s i := by
  obtain ⟨hidle, hruns⟩ := recompute_spec s
  cases hrun : recomputeRuns s with
  | true =>
    obtain ⟨hpub, -, -, -⟩ := hruns hrun
    rw [hpub, if_pos hi, if_pos hused]
  | false =>
    have hno := mt (recomputeRuns_iff s).mpr (Bool.eq_false_iff.mp hrun)
    push Not at hno
    obtain ⟨hclean, hsame⟩ := hno
    rw [hidle hrun]
    exact h (Bool.eq_false_iff.mpr hclean) i hi ((hsame i hi).symm.trans hused)

/-- Step 4 publishes what RECOMPUTE publishes (R385). -/
theorem stepPalette_pub (s : State) : (stepPalette s).pub = (recompute s).pub := by
  have hlayers : ∀ (f : LayerId → State → State), (∀ l t, (f l t).pub = t.pub) → ∀ u, (forLayers f u).pub = u.pub :=
    fun f hf u => forLayers_induct (P := fun t => t.pub = u.pub) u f rfl fun l t ht => (hf l t).trans ht
  unfold stepPalette
  split
  · rw [hlayers renderLayer fun _ _ => rfl, hlayers invalidate fun _ _ => rfl]
  · rfl

/-- What step 4 finds used it leaves published with its colour of the storage (R276, R385). -/
theorem FrameLook.pubAt_stepPalette {s u : State} (h : FrameLook s u) (hpub : PubCoherent u) {i : Nat}
    (hi : i < s.cfg.palN) (hused : usedAt u i = true) : pubAt (stepPalette u) i = rgbOf s i :=
  calc pubAt (stepPalette u) i
      = pubAt (recompute u) i := by rw [pubAt, stepPalette_pub, pubAt]
    _ = rgbOf u i := pubAt_recompute hpub (h.cfg ▸ hi) hused
    _ = rgbOf { s with flipPrev := flipBit s } i := rgbOf_of_storageOf_eq h.storage i
    _ = rgbOf s i := rfl

theorem usedAt_stepAccumulate_of_mem {s : State} {i : Nat} (hi : i ∈ accumulated s) :
    usedAt (stepAccumulate s) i = true := by
  rw [(stepAccumulate_spec s).1, decide_eq_true hi]

/-- Every index that a frame samples is published with its colour of the storage (R276, R388). -/
theorem pubAt_prepareFrame {s : State} (hb : boardLegal s.cfg = true) (hsync : FlipSync s) (hpub : PubCoherent s)
    {i : Nat} (hi : i ∈ accumulated (sampleFrame s)) : pubAt (prepareFrame s) i = rgbOf s i := by
  have hlook := FrameLook.sampleFrame hb hsync
  have hpub3 : PubCoherent (sampleFrame s) :=
    sampleFrame_keeps (fun hu ht => PubCoherent.microOp ht hu) (fun _ _ ht => ht.congr rfl rfl rfl rfl rfl rfl) hpub
  have hlt : i < (sampleFrame s).cfg.palN := accumulated_lt (hlook.cfg ▸ hb) hi
  exact hlook.stepAccumulate.pubAt_stepPalette ((hpub3.microOp .clearused).microOp .accumulate) (hlook.cfg ▸ hlt)
    (usedAt_stepAccumulate_of_mem hi)

/-- OUT of a frame is the published colour of the composited index (R388). -/
theorem outAt_renderFrame {s : State} {x y : Nat} (hx : x < (prepareFrame s).cfg.screenW)
    (hy : y < (prepareFrame s).cfg.screenH) :
    outAt (renderFrame s) x y = pubAt (prepareFrame s) (compAt (stepComposite (prepareFrame s)) x y) := by
  obtain ⟨m, hm⟩ := stepComposite_eq (prepareFrame s)
  have hout := (stepOutput_spec (stepComposite (prepareFrame s))).1 x y
  rw [hm] at hout ⊢
  rw [renderFrame_eq, hm]
  exact hout hx hy

theorem outAt_respond (r : Response) (s : State) (x y : Nat) : outAt (respond r s) x y = outAt s x y := rfl

/-- Settles O58: the caches are brought up to date before the draws, so each draw is a pass of FRAMEFN; and every index a
draw leaves was accumulated, so its published colour is the storage's. -/
theorem frameIsAFunctionOfTheStorage : Obligations.FrameIsAFunctionOfTheStorage := by
  intro s hgood hsync hrun
  have hb := hgood.board
  have hcoh : Coherent s := coherent_iff.mpr ⟨hgood.info, hgood.cache⟩
  refine ⟨respond .frame (renderFrame s), exec_frameRender s ▸ transact_running s _ hrun, fun x y hx hy => ?_⟩
  have hsample := FrameReady.sampleFrame hb hsync hcoh
  have hready := FrameReady.prepareFrame hb hsync hcoh
  have hmem := hsample.frameIndex_mem hb hx hy
  rw [outAt_respond]
  calc outAt (renderFrame s) x y
      = pubAt (prepareFrame s) (compAt (stepComposite (prepareFrame s)) x y) :=
        outAt_renderFrame (hready.cfg ▸ hx) (hready.cfg ▸ hy)
    _ = pubAt (prepareFrame s) (frameIndex s x y) := by rw [hready.compAt_stepComposite hb hx hy]
    _ = frameFn s x y := pubAt_prepareFrame hb hsync hgood.pub hmem

/-! ## FLIP and FLIP_PREV -/

namespace FlipSync

variable {s t : State}

/-- The invariant speaks of FLIP and FLIP_PREV only. -/
protected theorem congr (h : FlipSync s) (hprev : t.flipPrev = s.flipPrev)
    (hflip : ∀ l, (t.layer l).flip = (s.layer l).flip) : FlipSync t := fun l => by
  rw [hflip, hprev]
  exact h l

protected theorem respond (h : FlipSync s) (r : Response) : FlipSync (respond r s) := h.congr rfl fun _ => rfl

protected theorem raiseFault (h : FlipSync s) (e : Fault) : FlipSync (raiseFault e s) := h.congr rfl fun _ => rfl

/-- A layer update that leaves FLIP. -/
protected theorem setLayer (h : FlipSync s) (l : LayerId) {x : LayerState} (hx : x.flip = (s.layer l).flip) :
    FlipSync (s.setLayer l x) := by
  refine h.congr rfl fun k => ?_
  rw [State.layer_setLayer]
  split
  case isTrue hk => rw [hk, hx]
  case isFalse => rfl

protected theorem recompute (h : FlipSync s) : FlipSync (recompute s) := by
  unfold Machine.recompute
  split
  · exact h.congr rfl fun _ => rfl
  · exact h

/-- The frame leaves every layer flipped as it polled (R381). -/
protected theorem renderFrame (h : FlipSync s) (hb : boardLegal s.cfg = true) : FlipSync (renderFrame s) := by
  have hlook := FrameLook.prepareFrame hb h
  have hsync : FlipSync (prepareFrame s) := fun l => (hlook.flip l).trans hlook.flipPrev.symm
  obtain ⟨m, hm⟩ := stepComposite_eq (prepareFrame s)
  rw [renderFrame_eq, hm]
  generalize prepareFrame s = u at hsync
  exact hsync.congr rfl fun _ => rfl

/-- Every transaction but H.SETFLIP keeps the invariant: it writes no layer's FLIP, or it is a frame. -/
protected theorem exec (h : FlipSync s) (hb : boardLegal s.cfg = true) {i : Instr} (hi : exec i s = .next t)
    (hne : ∀ l f, i ≠ .hSetflip l f) : FlipSync t := by
  have hfault := h.raiseFault
  have key : ∀ {f}, exec i s = transact f s → FlipSync (f s) → FlipSync t := fun hf => exec_keeps_of_transact hf hi h
  cases i with
  | tileWr => exact key (exec_tileWr ..) (withLayerWindow_keeps hfault fun x => (h.setLayer x (by rfl)).respond _)
  | tileRd => exact key (exec_tileRd ..) (withLayerWindow_keeps hfault fun _ => h.respond _)
  | rscrWr => exact key (exec_rscrWr ..) (withLayerWindow_keeps hfault fun x => (h.setLayer x (by rfl)).respond _)
  | rscrRd => exact key (exec_rscrRd ..) (withLayerWindow_keeps hfault fun _ => h.respond _)
  | cscrWr => exact key (exec_cscrWr ..) (withLayerWindow_keeps hfault fun x => (h.setLayer x (by rfl)).respond _)
  | cscrRd => exact key (exec_cscrRd ..) (withLayerWindow_keeps hfault fun _ => h.respond _)
  | ctrlWr => exact key (exec_ctrlWr ..) (withBlockWindow_keeps hfault (h.congr rfl fun _ => rfl))
  | ctrlRd => exact key (exec_ctrlRd ..) (withBlockWindow_keeps hfault (h.congr rfl fun _ => rfl))
  | palWr0 => exact key (exec_palWr0 ..) (h.congr rfl fun _ => rfl)
  | palRd0 => exact key (exec_palRd0 ..) (h.congr rfl fun _ => rfl)
  | palWr1 => exact key (exec_palWr1 ..) (withBank1_keeps hfault (h.congr rfl fun _ => rfl))
  | palRd1 => exact key (exec_palRd1 ..) (withBank1_keeps hfault (h.congr rfl fun _ => rfl))
  | sprWr => exact key (exec_sprWr ..) (h.congr rfl fun _ => rfl)
  | sprRd => exact key (exec_sprRd ..) (h.congr rfl fun _ => rfl)
  | dmaWr => exact key (exec_dmaWr ..) (h.congr rfl fun _ => rfl)
  | dmaRd => exact key (exec_dmaRd ..) (h.congr rfl fun _ => rfl)
  | protWr => exact key (exec_protWr ..) (h.congr rfl fun _ => rfl)
  | protRd => exact key (exec_protRd ..) (h.congr rfl fun _ => rfl)
  | frameRender => exact key (exec_frameRender ..) ((h.renderFrame hb).respond _)
  | hUpdate => exact key (exec_hUpdate ..) (withLayerArg_keeps hfault fun x => (h.setLayer x (by rfl)).respond _)
  | hRender => exact key (exec_hRender ..) (withLayerArg_keeps hfault fun x => (h.setLayer x (by rfl)).respond _)
  | hDraw => exact key (exec_hDraw ..) (withLayerArg_keeps hfault fun _ => h.congr rfl fun _ => rfl)
  | hSprdraw => exact key (exec_hSprdraw ..) (h.congr rfl fun _ => rfl)
  | hMarkused => exact key (exec_hMarkused ..) (withPaletteArg_keeps hfault (h.congr rfl fun _ => rfl))
  | hRecompute => exact key (exec_hRecompute ..) (h.recompute.respond _)
  | hSetflip l f => exact absurd rfl (hne l f)
  | hMarkalldirty => exact key (exec_hMarkalldirty ..) (withLayerArg_keeps hfault fun x => (h.setLayer x (by rfl)).respond _)
  | hLatchscroll => exact key (exec_hLatchscroll ..) (withLayerArg_keeps hfault fun x => (h.setLayer x (by rfl)).respond _)
  | hClearused => exact key (exec_hClearused ..) (h.congr rfl fun _ => rfl)
  | hInvalidate => exact key (exec_hInvalidate ..) (withLayerArg_keeps hfault fun x => (h.setLayer x (by rfl)).respond _)
  | hFill => exact key (exec_hFill ..) (h.congr rfl fun _ => rfl)
  | hOutput => exact key (exec_hOutput ..) (h.congr rfl fun _ => rfl)

end FlipSync

/-- Settles O16: of the transactions, H.SETFLIP alone writes FLIP without FLIP_PREV. -/
theorem onlySetflipBreaksFlipSync : Obligations.OnlySetflipBreaksFlipSync := by
  intro s t hsync hstep hne
  obtain rfl | ⟨w, rest, hport, hb, -, hperform⟩ := step_next s hstep
  · exact hsync
  · have h : FlipSync { s with port := rest } := hsync.congr rfl fun _ => rfl
    obtain ⟨r, -, rfl⟩ | ⟨i, hdecode, hexec⟩ := hperform
    · exact h.congr rfl fun _ => rfl
    · exact h.exec hb hexec fun l f hi => hne w rest l f hport (hi ▸ hdecode)

/-! ## FRAMEFN spelled out -/

/-- What the writes of SPRDRAW leave of a pixel, cell by cell in walk and chain order (R319). -/
theorem lastWrite_spriteWrites (s : State) (flip : Bool) (pass : SprPass) (k c : Nat) :
    lastWrite (spriteWrites s flip pass) k c
      = ((drawnEntries s pass).flatMap fun e => spriteCells s flip e).foldl
          (fun acc q => lastWrite (cellWrites s.cfg q) k acc) c := by
  simp only [spriteWrites, ← List.flatMap_assoc]
  exact List.foldl_flatMap

/-- The position of a sampled pixel, coordinate by coordinate (R222). -/
theorem samplePos_eq (s : State) (l : LayerId) (x y : Nat) :
    samplePos s l x y
      = scrollWith s.cfg (s.cfg.layer l) (s.layer l) (resolveScroll l s)
          (if flipBit s = true then s.cfg.screenW - 1 - x else x)
          (if flipBit s = true then s.cfg.screenH - 1 - y else y) := by
  rw [samplePos, flipMap_eq]

theorem passIndex_back (s : State) (l : LayerId) (x y c : Nat) :
    passIndex s x y (.layer l .back) c
      = if (s.cfg.layer l).isOpaque = true ∨ (samplePixel s l x y).pen ≠ (s.cfg.layer l).transPen
        then (samplePixel s l x y).idx else c := by
  simp only [passIndex_layer, passDraws_back_iff]

theorem samplePixel_cls_eq_front_iff (s : State) (l : LayerId) (x y : Nat) :
    (samplePixel s l x y).cls = .front ↔
      (s.cfg.layer l).split = true
        ∧ (sampleInfo s l x y).priorityBit = true
        ∧ (s.cfg.layer l).splitPen.toNat ≤ (samplePixel s l x y).pen.toNat :=
  splitClass_eq_front_iff

theorem passIndex_front (s : State) (l : LayerId) (x y c : Nat) :
    passIndex s x y (.layer l .front) c
      = if (s.cfg.layer l).split = true
          ∧ (sampleInfo s l x y).priorityBit = true
          ∧ (s.cfg.layer l).splitPen.toNat ≤ (samplePixel s l x y).pen.toNat
          ∧ (samplePixel s l x y).pen ≠ (s.cfg.layer l).transPen
        then (samplePixel s l x y).idx else c := by
  simp only [passIndex_layer, passDraws_front_iff, samplePixel_cls_eq_front_iff, and_assoc]

/-- The nine draws of a frame, the first innermost (R386). -/
theorem frameIndex_eq (s : State) (x y : Nat) {m1 m2 : LayerId} (hmid : midLayers s = (m1, m2)) :
    frameIndex s x y = passIndex s x y (.layer .fg .back) (passIndex s x y (.layer m2 .front)
      (passIndex s x y (.layer m1 .front) (passIndex s x y (.layer .bg .front) (passIndex s x y (.sprites .high)
      (passIndex s x y (.layer m2 .back) (passIndex s x y (.layer m1 .back) (passIndex s x y (.sprites .low)
      (passIndex s x y (.layer .bg .back) s.cfg.backdrop)))))))) := by
  rw [frameIndex, hmid]
  rfl

theorem midLayers_of_ab {s : State} (h : prioOrderAt s.cfg.prioOrder s.pstate = .ab) : midLayers s = (.mida, .midb) := by
  rw [midLayers, h]

theorem midLayers_of_ba {s : State} (h : prioOrderAt s.cfg.prioOrder s.pstate = .ba) : midLayers s = (.midb, .mida) := by
  rw [midLayers, h]

/-- Settles O57: the order of the mid layers picks the chain of `frameIndex_eq`, and each pass of it is one of
`passIndex_back`, `passIndex_front` and `lastWrite_spriteWrites`. -/
theorem framefnIsTheChainOfNineDraws : Obligations.FramefnIsTheChainOfNineDraws := by
  intro s x y c f ux uy pos info pen idx back front sprites frame
  have hpos : ∀ l, samplePos s l x y = pos l := fun l => samplePos_eq s l x y
  have hinfo : ∀ l, sampleInfo s l x y = info l := fun l => by
    rw [sampleInfo, hpos]
    rfl
  have hpixel : ∀ l, (samplePixel s l x y).pen = pen l ∧ (samplePixel s l x y).idx = idx l := fun l => by
    rw [samplePixel, hpos]
    exact ⟨rfl, rfl⟩
  have hback : ∀ l old, passIndex s x y (.layer l .back) old = back l old := fun l old => by
    rw [passIndex_back, (hpixel l).1, (hpixel l).2]
  have hfront : ∀ l old, passIndex s x y (.layer l .front) old = front l old := fun l old => by
    rw [passIndex_front, hinfo, (hpixel l).1, (hpixel l).2]
  have hsprites : ∀ pass old, passIndex s x y (.sprites pass) old = sprites pass old := fun pass old =>
    lastWrite_spriteWrites s (flipBit s) pass (screenKey s.cfg x y) old
  have hframe : ∀ m1 m2, midLayers s = (m1, m2) → frameIndex s x y = frame m1 m2 := fun m1 m2 hmid => by
    simp only [frameIndex_eq s x y hmid, hback, hfront, hsprites]
    rfl
  exact ⟨rfl, fun h => hframe _ _ (midLayers_of_ab h), fun h => hframe _ _ (midLayers_of_ba h)⟩

end Sys2Proof.Machine
end

section
/-!
PROOFS. The palette cache family: the colour of a palette word (O49), the palette controller's micro-operations (O50-O52),
a palette word written and read back (O29), and what a frame leaves of the flags and the published palette (O55, O56).
-/

namespace Sys2Proof.Machine

/-! ## Colours -/

/-- A 4-bit channel put twice side by side is 17 times the channel (R262). -/
theorem scale4_toNat (c : BitVec 4) : (scale4 c).toNat = 17 * c.toNat := by
  have happend : (scale4 c).toNat = c.toNat * 2 ^ 4 + c.toNat := append_toNat c c
  omega

/-- A channel of PACKED_RGBX: 17 times the 4-bit field at its place (R262). -/
theorem scale4_extractLsb'_toNat (w : Word) (lo : Nat) :
    (scale4 (w.extractLsb' lo 4)).toNat = 17 * (w.toNat / 2 ^ lo % 16) :=
  (scale4_toNat _).trans (congrArg (17 * ·) (field_eq w lo 4))

theorem rgbOf_split {s : State} (h : s.cfg.palFmt = .splitRgB) (i : Nat) :
    rgbOf s i = rgbSplit (pal0At s i) (pal1At s i) := by
  rw [rgbOf, h]

theorem rgbOf_packed {s : State} (h : s.cfg.palFmt = .packedRgbx) (i : Nat) : rgbOf s i = rgbPacked (pal0At s i) := by
  rw [rgbOf, h]

/-- The channels of SPLIT_RG_B: the bytes of the RG word and the low byte of the B word (R261). -/
theorem rgbSplit_toNat (rg b : Word) :
    (rgbSplit rg b).r.toNat = rg.toNat % 256 ∧ (rgbSplit rg b).g.toNat = rg.toNat / 256
      ∧ (rgbSplit rg b).b.toNat = b.toNat % 256 :=
  ⟨byteOfLane_toNat .low rg, byteOfLane_toNat .high rg, byteOfLane_toNat .low b⟩

/-- The channels of PACKED_RGBX; the top one needs no bound, for a word has 16 bits (R262). -/
theorem rgbPacked_toNat (w : Word) :
    (rgbPacked w).r.toNat = 17 * (w.toNat / 4096) ∧ (rgbPacked w).g.toNat = 17 * (w.toNat / 256 % 16)
      ∧ (rgbPacked w).b.toNat = 17 * (w.toNat / 16 % 16) := by
  refine ⟨?_, scale4_extractLsb'_toNat w 8, scale4_extractLsb'_toNat w 4⟩
  have htop : w.toNat / 4096 < 16 := Nat.div_lt_of_lt_mul w.isLt
  rw [← Nat.mod_eq_of_lt htop]
  exact scale4_extractLsb'_toNat w 12

/-- Settles O49: the board's format picks the conversion. -/
theorem colourConversion : Obligations.ColourConversion := by
  refine fun s i => ⟨fun hfmt => ?_, fun hfmt => ?_⟩
  · rw [rgbOf_split hfmt]
    exact rgbSplit_toNat _ _
  · rw [rgbOf_packed hfmt]
    exact rgbPacked_toNat _

/-! ## The used flags -/

/-- Settles O50: the two perform `markUsed` and `clearUsed`, each with its `_spec`. -/
theorem usedFlagsAreMarkedAndCleared : Obligations.UsedFlagsAreMarkedAndCleared := by
  intro s hrun
  simp only [exec_hMarkused, exec_hClearused, transact_running s _ hrun]
  refine ⟨fun i hi => ?_, fun i hi => ?_, ?_⟩
  · rw [withPaletteArg_ge s _ hi, raiseFault]
  · obtain ⟨hmark, -⟩ := markUsed_spec s i
    rw [withPaletteArg_lt s _ hi]
    exact ⟨_, rfl, hmark, rfl, rfl⟩
  · obtain ⟨hclear, -⟩ := clearUsed_spec s
    exact ⟨_, rfl, fun j _ => hclear j, rfl, rfl⟩

/-! ## RECOMPUTE -/

/-- Settles O51: `recompute_spec` says what a RECOMPUTE that runs writes, and the answer is `recomputeReports`. -/
theorem recomputePublishesUsedColours : Obligations.RecomputePublishesUsedColours := by
  intro s hrun runs changes
  obtain ⟨hidle, hruns⟩ := recompute_spec s
  rw [exec_hRecompute, transact_running s _ hrun]
  refine ⟨fun hno => ?_, fun hyes => ?_⟩
  · have hrun : recomputeRuns s = false := Bool.eq_false_iff.mpr (mt (recomputeRuns_iff s).mp hno)
    rw [hidle hrun, recomputeReports, hrun]
    rfl
  · have hrun : recomputeRuns s = true := (recomputeRuns_iff s).mpr hyes
    obtain ⟨hpub, hprev, hdirty, hframe⟩ := hruns hrun
    have hreport : recomputeReports s = somePubDiffers s := by rw [recomputeReports, hrun, Bool.true_and]
    refine ⟨_, rfl, fun i hi => (hpub i).trans (if_pos hi), fun i => ?_, hdirty, fun hchange => ?_, fun hsame => ?_, ?_⟩
    · exact congrArg (fun m => Store.read unlistedUse m i) hprev
    · rw [returnData_resp, hreport, (somePubDiffers_iff s).mpr hchange]
      rfl
    · rw [returnData_resp, hreport, Bool.eq_false_iff.mpr (mt (somePubDiffers_iff s).mp hsame)]
      rfl
    · exact congrArg (fun t : State => { t with resp := s.resp }) hframe

/-! ## INVALIDATE -/

/-- Settles O52: H.INVALIDATE performs `invalidate`, and `invalidate_spec` says all it does. -/
theorem invalidateMarksEveryCellStale : Obligations.InvalidateMarksEveryCellStale := by
  intro s l hrun
  refine ⟨fun hl => ?_, fun x hx => ?_⟩
  · rw [exec_hInvalidate, transact_layerArg_none _ hrun hl]
  · obtain ⟨y, hy, hstale, hframe⟩ := invalidate_spec s x
    obtain ⟨t, ht, rfl, hresp, hrest⟩ := exec_layerOp _ (fun z => { z with stale := (s.layer x).stale })
      (exec_hInvalidate s l) hrun hx hy hframe
    exact ⟨t, ht, fun o _ => hstale o, hresp, hrest⟩

/-! ## A palette word written and read back -/

/-- A list of transactions completes, and keeps what each of them keeps. -/
theorem execAll_keeps {P : State → Prop} {is : List Instr} {s : State}
    (hkeep : ∀ i ∈ is, ∀ u v, exec i u = .next v → P u → P v) (hs : P s) : ∃ t, execAll is s = .next t ∧ P t := by
  induction is generalizing s with
  | nil => exact ⟨s, rfl, hs⟩
  | cons i rest ih =>
    obtain ⟨u, hu⟩ := exec_next s i
    rw [execAll, hu]
    exact ih (fun j hj => hkeep j (List.mem_cons_of_mem _ hj)) (hkeep i List.mem_cons_self s u hu hs)

/-- The board and the palette words, which transactions other than PAL.WR keep (R277). -/
def SamePalette (s t : State) : Prop := t.cfg = s.cfg ∧ t.pal0 = s.pal0 ∧ t.pal1 = s.pal1

theorem execAll_samePalette {is : List Instr} (hne : ∀ i ∈ is, ∀ o d m, i ≠ .palWr0 o d m ∧ i ≠ .palWr1 o d m)
    (s : State) : ∃ t, execAll is s = .next t ∧ SamePalette s t := by
  refine execAll_keeps (fun i hi u v hv hu => ?_) ⟨rfl, rfl, rfl⟩
  obtain ⟨hcfg, hpal0, hpal1⟩ := hu
  have hchange := (exec_effect hv).storageChange
  exact ⟨hchange.cfg_eq.trans hcfg, (hchange.pal0_eq fun o d m => (hne i hi o d m).1).trans hpal0,
    (hchange.pal1_eq fun o d m => (hne i hi o d m).2).trans hpal1⟩

/-- Settles O29: PAL.WR leaves the merged word in its bank, the list keeps it, and PAL.RD answers it. -/
theorem paletteRoundTrip : Obligations.PaletteRoundTrip := by
  intro s off data mask is hrun hne
  refine ⟨?_, fun hfmt => ?_, fun old => merge_full old data⟩
  · obtain ⟨t, ht, hread, -, -, -⟩ := paletteBank0WriteMerges s off data mask hrun
    have hcfg : t.cfg = s.cfg := (exec_effect ht).storageChange.cfg_eq
    obtain ⟨u, hu, hcfg', hpal0, -⟩ := execAll_samePalette hne t
    refine ⟨t, u, ht, hu, fun hrun' => ?_⟩
    obtain ⟨hrd, -⟩ := paletteReadsReturnTheWord u off hrun'
    rw [hrd, pal0At, hpal0, hcfg', hcfg, ← pal0At, hread, if_pos rfl]
  · obtain ⟨-, hwrite⟩ := paletteBank1WriteMerges s off data mask hrun
    obtain ⟨t, ht, hread, -, -, -⟩ := hwrite hfmt
    have hcfg : t.cfg = s.cfg := (exec_effect ht).storageChange.cfg_eq
    obtain ⟨u, hu, hcfg', -, hpal1⟩ := execAll_samePalette hne t
    refine ⟨t, u, ht, hu, fun hrun' => ?_⟩
    obtain ⟨-, -, hrd⟩ := paletteReadsReturnTheWord u off hrun'
    rw [hrd (by rw [hcfg', hcfg, hfmt]), pal1At, hpal1, hcfg', hcfg, ← pal1At, hread, if_pos rfl]

/-! ## The flags and the published palette after a frame -/

/-- Steps 1 to 3 write FLIP_PREV alone of the storage (R381-R383). -/
theorem storageOf_sampleFrame (s : State) :
    storageOf (sampleFrame s) = storageOf { s with flipPrev := flipBit s } :=
  (storageOf_stepUpdate _).trans ((storageOf_stepScroll _).trans (storageOf_stepFlip s))

theorem sampleFrame_cfg (s : State) : (sampleFrame s).cfg = s.cfg := congrArg Storage.cfg (storageOf_sampleFrame s)

theorem prepareFrame_eq (s : State) : prepareFrame s = stepPalette (stepAccumulate (sampleFrame s)) := rfl

/-- The accumulation writes USED alone (R271, R384). -/
theorem stepAccumulate_cfg (s : State) : (stepAccumulate s).cfg = s.cfg := rfl

theorem storageOf_stepAccumulate (s : State) : storageOf (stepAccumulate s) = storageOf s := rfl

theorem cachesClean_stepAccumulate {s : State} (h : CachesClean s) : CachesClean (stepAccumulate s) := h

/-- Steps 1 to 4 write FLIP_PREV alone of the storage (R381-R385). -/
theorem storageOf_prepareFrame (s : State) :
    storageOf (prepareFrame s) = storageOf { s with flipPrev := flipBit s } := by
  rw [prepareFrame_eq, storageOf_stepPalette, storageOf_stepAccumulate, storageOf_sampleFrame]

theorem prepareFrame_cfg (s : State) : (prepareFrame s).cfg = s.cfg := congrArg Storage.cfg (storageOf_prepareFrame s)

/-- The draws, the output and the counter leave everything but COMP, OUT and FRAME_CNT (R386-R389). -/
theorem renderFrame_eq_prepareFrame (s : State) :
    ∃ comp out cnt, renderFrame s = { prepareFrame s with comp := comp, out := out, frameCnt := cnt } := by
  obtain ⟨m, hm⟩ := stepComposite_eq (prepareFrame s)
  rw [renderFrame_eq, hm]
  generalize prepareFrame s = u
  exact ⟨_, _, _, rfl⟩

theorem exec_frameRender_running {s : State} (hrun : halted s = false) :
    exec .frameRender s = .next (respond .frame (renderFrame s)) := by
  rw [exec_frameRender, transact_running s _ hrun]

/-- Of what is not in a layer, step 4 writes what RECOMPUTE writes (R385). -/
theorem stepPalette_eq_recompute {α : Type} (g : State → α) (hg : ∀ s l x, g (s.setLayer l x) = g s) (s : State) :
    g (stepPalette s) = g (recompute s) := by
  have hlayers : ∀ (f : LayerId → State → State), (∀ l t, g (f l t) = g t) → ∀ u, g (forLayers f u) = g u :=
    fun f hf u => forLayers_induct (P := fun t => g t = g u) u f rfl fun l t ht => (hf l t).trans ht
  unfold stepPalette
  split
  · rw [hlayers renderLayer fun l t => hg t l _, hlayers invalidate fun l t => hg t l _]
  · rfl

/-- A RECOMPUTE leaves no palette write outstanding: one that does not run found none (R272, R273). -/
theorem recompute_palDirty (s : State) : (recompute s).palDirty = false := by
  obtain ⟨hidle, hruns⟩ := recompute_spec s
  cases hrun : recomputeRuns s with
  | true =>
    obtain ⟨-, -, hdirty, -⟩ := hruns hrun
    exact hdirty
  | false =>
    rw [hidle hrun]
    exact Bool.eq_false_iff.mpr fun hdirty => Bool.eq_false_iff.mp hrun ((recomputeRuns_iff s).mpr (.inl hdirty))

/-- RECOMPUTE leaves USED_PREV equal to USED: one that does not run found them equal (R272, R273). -/
theorem usedPrevAt_recompute (s : State) {i : Nat} (hi : i < s.cfg.palN) : usedPrevAt (recompute s) i = usedAt s i := by
  obtain ⟨hidle, hruns⟩ := recompute_spec s
  cases hrun : recomputeRuns s with
  | true =>
    obtain ⟨-, hprev, -, -⟩ := hruns hrun
    rw [usedPrevAt, hprev, usedAt]
  | false =>
    rw [hidle hrun]
    by_contra hdiffers
    exact Bool.eq_false_iff.mp hrun ((recomputeRuns_iff s).mpr (.inr ⟨i, hi, Ne.symm hdiffers⟩))

/-- No palette write is outstanding, and every used entry is noted as used and published with its colour. -/
structure PaletteSettled (s : State) : Prop where
  palDirty : s.palDirty = false
  usedPrev : ∀ i, i < s.cfg.palN → usedPrevAt s i = usedAt s i
  pub : ∀ i, i < s.cfg.palN → usedAt s i = true → pubAt s i = rgbOf s i

/-- Step 4 settles the palette (R276, R385). -/
theorem paletteSettled_stepPalette {s : State} (hpub : PubCoherent s) : PaletteSettled (stepPalette s) := by
  have hstorage := storageOf_stepPalette s
  have hcfg : (stepPalette s).cfg = s.cfg := congrArg Storage.cfg hstorage
  have hused : ∀ i, usedAt (stepPalette s) i = usedAt s i := fun i => by rw [usedAt, stepPalette_used, usedAt]
  constructor
  · exact (stepPalette_eq_recompute State.palDirty (fun _ _ _ => rfl) s).trans (recompute_palDirty s)
  · intro i hi
    rw [hused, stepPalette_eq_recompute (fun t => usedPrevAt t i) (fun _ _ _ => rfl) s]
    exact usedPrevAt_recompute s (hcfg ▸ hi)
  · intro i hi hmark
    rw [hused] at hmark
    rw [stepPalette_eq_recompute (fun t => pubAt t i) (fun _ _ _ => rfl) s, rgbOf_of_storageOf_eq hstorage]
    exact pubAt_recompute hpub (hcfg ▸ hi) hmark

theorem paletteSettled_prepareFrame {s : State} (hpub : PubCoherent s) : PaletteSettled (prepareFrame s) := by
  have hsample : PubCoherent (sampleFrame s) :=
    sampleFrame_keeps (fun hu ht => PubCoherent.microOp ht hu) (fun _ _ ht => ht.congr rfl rfl rfl rfl rfl rfl) hpub
  rw [prepareFrame_eq]
  exact paletteSettled_stepPalette ((hsample.microOp .clearused).microOp .accumulate)

/-- The colours are those of the palette words at the start of the frame. -/
theorem rgbOf_prepareFrame (s : State) (i : Nat) : rgbOf (prepareFrame s) i = rgbOf s i :=
  calc rgbOf (prepareFrame s) i
      = rgbOf { s with flipPrev := flipBit s } i := rgbOf_of_storageOf_eq (storageOf_prepareFrame s) i
    _ = rgbOf s i := rfl

/-- No later step of a frame than the third makes a cell dirty, or leaves it stale (R383, R385). -/
theorem cachesClean_prepareFrame {s : State} (hb : boardLegal s.cfg = true) : CachesClean (prepareFrame s) := by
  have hscroll : (stepScroll (stepFlip s)).cfg = s.cfg :=
    congrArg Storage.cfg ((storageOf_stepScroll _).trans (storageOf_stepFlip s))
  have hsample : CachesClean (sampleFrame s) := cachesClean_stepUpdate (hscroll.symm ▸ hb)
  rw [prepareFrame_eq]
  refine cachesClean_stepPalette ?_ (cachesClean_stepAccumulate hsample)
  rw [stepAccumulate_cfg, sampleFrame_cfg, hb]

/-- Settles O55: the draws leave the flags and PUB as step 4 left them. -/
theorem frameLeavesTheCachesClean : Obligations.FrameLeavesTheCachesClean := by
  intro s hb hpub hrun
  refine ⟨_, exec_frameRender_running hrun, ?_⟩
  obtain ⟨comp, out, cnt, hframe⟩ := renderFrame_eq_prepareFrame s
  have hclean := cachesClean_prepareFrame hb
  have hsettled := paletteSettled_prepareFrame hpub
  have hcfg := prepareFrame_cfg s
  have hrgb := rgbOf_prepareFrame s
  rw [hframe]
  generalize prepareFrame s = u at hclean hsettled hcfg hrgb
  rw [CachesClean, hcfg] at hclean
  obtain ⟨hdirty, hprev, hpub⟩ := hsettled
  rw [hcfg] at hprev hpub
  exact ⟨hclean, hdirty, fun i hi => ⟨hprev i hi, fun hused => (hpub i hi hused).trans (hrgb i)⟩⟩

/-! ## INFO after step 3 of a frame, whatever PCACHE and the flips hold -/

namespace InfoCoherent

variable {s t : State}

protected theorem congr (h : InfoCoherent s) (hcfg : t.cfg = s.cfg) (hlayer : ∀ l, t.layer l = s.layer l) :
    InfoCoherent t := by
  simpa only [InfoCoherent, hcfg, hlayer] using h

protected theorem setLayer (h : InfoCoherent s) (l : LayerId) {x : LayerState}
    (hx : ∀ o, o < cellsOf (s.cfg.layer l) → dirtyAt x o = false →
      infoAt x o = decodeInfo (s.cfg.layer l).dec (tileAt x o)) : InfoCoherent (s.setLayer l x) := by
  intro k
  rw [State.layer_setLayer]
  split
  case isTrue hk => exact hk ▸ hx
  case isFalse => exact h k

/-- A layer update that leaves TILE, DIRTY and INFO. -/
protected theorem setLayer_frame (h : InfoCoherent s) (l : LayerId) {x : LayerState} (htile : x.tile = (s.layer l).tile)
    (hdirty : x.dirty = (s.layer l).dirty) (hinfo : x.info = (s.layer l).info) : InfoCoherent (s.setLayer l x) :=
  h.setLayer l (by simpa only [dirtyAt, infoAt, tileAt, htile, hdirty, hinfo] using h l)

protected theorem setFlip (h : InfoCoherent s) (l : LayerId) (f : Bool) : InfoCoherent (setFlip l f s) := by
  obtain ⟨x, hx, -, hdirty, -⟩ := setFlip_spec s l f
  rw [hx]
  exact h.setLayer l fun o _ hclean => absurd hclean (by rw [hdirty]; decide)

protected theorem updateLayer (h : InfoCoherent s) (l : LayerId) : InfoCoherent (updateLayer l s) := by
  obtain ⟨x, hx, hinfo, -, -, hframe⟩ := updateLayer_spec s l
  have htile : x.tile = (s.layer l).tile := by rw [← hframe]
  rw [hx]
  refine h.setLayer l fun o ho _ => ?_
  rw [hinfo, if_pos ho, tileAt, tileAt, htile]
  split
  case isTrue => rfl
  case isFalse hclean => exact h l o ho (Bool.eq_false_iff.mpr hclean)

protected theorem stepFlip (h : InfoCoherent s) : InfoCoherent (stepFlip s) := by
  unfold Machine.stepFlip
  split
  · exact h
  · have hflipped : InfoCoherent (forLayers (fun l t => Machine.setFlip l (flipBit s) t) s) :=
      forLayers_induct s _ h fun l _ ht => ht.setFlip l _
    exact hflipped.congr rfl fun _ => rfl

protected theorem sampleFrame (h : InfoCoherent s) : InfoCoherent (sampleFrame s) := by
  have hscroll : InfoCoherent (stepScroll (Machine.stepFlip s)) :=
    forLayers_induct _ _ h.stepFlip fun l _ ht => ht.setLayer_frame l rfl rfl rfl
  exact forLayers_induct _ _ hscroll fun l _ ht => (ht.updateLayer l).setLayer_frame l rfl rfl rfl

end InfoCoherent

/-- After step 3 no cell is dirty, so INFO of every cell is its decoded tile word of the storage (R228, R383). -/
theorem infoAt_sampleFrame {s : State} (hb : boardLegal s.cfg = true) (hinfo : InfoCoherent s) (l : LayerId) {o : Nat}
    (ho : o < cellsOf (s.cfg.layer l)) :
    infoAt ((sampleFrame s).layer l) o = decodeInfo (s.cfg.layer l).dec (tileAt (s.layer l) o) := by
  have hstorage := storageOf_sampleFrame s
  have htile : ((sampleFrame s).layer l).tile = (s.layer l).tile := congrFun (congrArg Storage.tile hstorage) l
  have hcfg : (stepScroll (stepFlip s)).cfg = s.cfg :=
    congrArg Storage.cfg ((storageOf_stepScroll _).trans (storageOf_stepFlip s))
  have hclean : CachesClean (sampleFrame s) := cachesClean_stepUpdate (hcfg.symm ▸ hb)
  have hcoh := hinfo.sampleFrame l o
  rw [sampleFrame_cfg] at hcoh
  rw [hcoh ho (hclean l o ((sampleFrame_cfg s).symm ▸ ho)).1, tileAt, htile, tileAt]

/-- After step 3 the scroll map is that of the control words and tables at the start of the frame (R382). -/
theorem scrollMap_sampleFrame {s : State} (hb : boardLegal s.cfg = true) (l : LayerId) (ux uy : Nat) :
    scrollMap (sampleFrame s) l ux uy
      = scrollWith s.cfg (s.cfg.layer l) (s.layer l) (resolveScroll l s) ux uy := by
  have hstorage := storageOf_sampleFrame s
  have hrowtab : ((sampleFrame s).layer l).rowtab = (s.layer l).rowtab := congrFun (congrArg Storage.rowtab hstorage) l
  have hcoltab : ((sampleFrame s).layer l).coltab = (s.layer l).coltab := congrFun (congrArg Storage.coltab hstorage) l
  have hflip := storageOf_stepFlip s
  have hcfg : (stepFlip s).cfg = s.cfg := congrArg Storage.cfg hflip
  have hscr : ((sampleFrame s).layer l).scr = resolveScroll l s :=
    calc ((sampleFrame s).layer l).scr
        = (lookOf (stepScroll (stepFlip s)) l).2 := congrArg Prod.snd (congrFun (lookOf_stepUpdate _) l)
      _ = resolveScroll l (stepFlip s) := by rw [lookOf_stepScroll (hcfg.symm ▸ hb)]
      _ = resolveScroll l s := resolveScroll_eq l hcfg (congrArg Storage.cr hflip)
  simp only [scrollMap, scrollWith, hscr, sampleFrame_cfg, rowtabAt, coltabAt, hrowtab, hcoltab]

/-! ## The visible cells -/

/-- The visible cells are the cells that some screen position shows (R227). -/
theorem mem_visibleCells_iff {s : State} {l : LayerId} {o : Nat} :
    o ∈ visibleCells s l ↔ ∃ ux uy, ux < s.cfg.screenW ∧ uy < s.cfg.screenH
      ∧ cellAt (s.cfg.layer l) (scrollMap s l ux uy).1 (scrollMap s l ux uy).2 = o := by
  constructor
  · intro ho
    obtain ⟨k, hk, hcell⟩ := List.mem_map.mp (List.mem_dedup.mp ho)
    have hlt : k < s.cfg.screenW * s.cfg.screenH := List.mem_range.mp hk
    exact ⟨k % s.cfg.screenW, k / s.cfg.screenW, Nat.mod_lt _ (Nat.pos_of_lt_mul_right hlt),
      Nat.div_lt_of_lt_mul hlt, hcell⟩
  · rintro ⟨ux, uy, hx, hy, rfl⟩
    exact mem_visibleCells l hx hy

/-! ## The live entries -/

/-- In a list ordered by an asymmetric relation, the leading run where `p` holds: the members where `p` holds, and at every
member ordered before them. -/
theorem mem_takeWhile_iff_of_pairwise {α : Type} {r : α → α → Prop} (hasymm : ∀ a b, r a b → ¬ r b a) {p : α → Bool}
    {l : List α} (hl : l.Pairwise r) {x : α} :
    x ∈ l.takeWhile p ↔ x ∈ l ∧ p x = true ∧ ∀ y ∈ l, r y x → p y = true := by
  induction l with
  | nil => simp
  | cons a rest ih =>
    obtain ⟨ha, hrest⟩ := List.pairwise_cons.mp hl
    cases hpa : p a with
    | false =>
      rw [List.takeWhile_cons_of_neg (by simp [hpa])]
      refine iff_of_false List.not_mem_nil ?_
      rintro ⟨hx, hpx, hbefore⟩
      obtain rfl | hx := List.mem_cons.mp hx
      · exact Bool.eq_false_iff.mp hpa hpx
      · exact Bool.eq_false_iff.mp hpa (hbefore a List.mem_cons_self (ha x hx))
    | true =>
      rw [List.takeWhile_cons_of_pos hpa, List.mem_cons, List.mem_cons, ih hrest]
      constructor
      · rintro (rfl | ⟨hx, hpx, hbefore⟩)
        · refine ⟨.inl rfl, hpa, fun y hy hyx => ?_⟩
          obtain rfl | hy := List.mem_cons.mp hy
          · exact hpa
          · exact absurd hyx (hasymm _ _ (ha y hy))
        · refine ⟨.inr hx, hpx, fun y hy hyx => ?_⟩
          obtain rfl | hy := List.mem_cons.mp hy
          · exact hpa
          · exact hbefore y hy hyx
      · rintro ⟨rfl | hx, hpx, hbefore⟩
        · exact .inl rfl
        · exact .inr ⟨hx, hpx, fun y hy => hbefore y (List.mem_cons_of_mem _ hy)⟩

/-- The walk meets entry `d` before entry `e` (R316). -/
def WalksBefore (c : Cfg) (d e : Nat) : Prop := (c.sprOrder = .desc ∧ e < d) ∨ (c.sprOrder = .asc ∧ d < e)

theorem walksBefore_asymm (c : Cfg) (d e : Nat) (h : WalksBefore c d e) : ¬ WalksBefore c e d := by
  rintro (⟨hdesc, hlt⟩ | ⟨hasc, hlt⟩)
  · obtain ⟨-, hgt⟩ | ⟨hasc, -⟩ := h
    · omega
    · cases hasc.symm.trans hdesc
  · obtain ⟨hdesc, -⟩ | ⟨-, hgt⟩ := h
    · cases hasc.symm.trans hdesc
    · omega

theorem walkOrder_pairwise (c : Cfg) : (walkOrder c).Pairwise (WalksBefore c) := by
  unfold walkOrder
  split
  case h_1 hasc => exact List.pairwise_lt_range.imp fun hlt => .inr ⟨hasc, hlt⟩
  case h_2 hdesc => exact List.pairwise_reverse.mpr (List.pairwise_lt_range.imp fun hlt => .inl ⟨hdesc, hlt⟩)

theorem mem_walkOrder {c : Cfg} {e : Nat} : e ∈ walkOrder c ↔ e < c.sprN := by
  unfold walkOrder
  split <;> simp

/-- The live entries: those not unused, before which under STOP the walk meets no unused one (R305, R316, R321). -/
theorem mem_liveEntries_iff {s : State} {e : Nat} :
    e ∈ liveEntries s ↔ e < s.cfg.sprN ∧ entryTile s e ≠ s.cfg.sprUnusedTile
      ∧ (s.cfg.sprUnusedAction = .stop → ∀ d, d < s.cfg.sprN → WalksBefore s.cfg d e →
          entryTile s d ≠ s.cfg.sprUnusedTile) := by
  have hused : ∀ d, (!entryUnused s d) = true ↔ entryTile s d ≠ s.cfg.sprUnusedTile := by simp [entryUnused]
  unfold liveEntries
  split
  case h_1 hskip =>
    rw [List.mem_filter, mem_walkOrder, hused, hskip]
    exact and_congr_right fun _ => (and_iff_left nofun).symm
  case h_2 hstop =>
    rw [mem_takeWhile_iff_of_pairwise (walksBefore_asymm s.cfg) (walkOrder_pairwise s.cfg)]
    simp only [mem_walkOrder, hused, hstop, forall_const]

/-- The live entries and their colours are functions of the board and the snapshot (R300-R305). -/
theorem spriteEntries_eq {s u : State} (hcfg : u.cfg = s.cfg) (hsnap : u.snap = s.snap) :
    liveEntries u = liveEntries s ∧ entryColor u = entryColor s := by
  have hsame : { s with cfg := u.cfg, snap := u.snap } = s := by rw [hcfg, hsnap]
  constructor
  · calc liveEntries u = liveEntries { s with cfg := u.cfg, snap := u.snap } := rfl
      _ = liveEntries s := by rw [hsame]
  · calc entryColor u = entryColor { s with cfg := u.cfg, snap := u.snap } := rfl
      _ = entryColor s := by rw [hsame]

/-! ## The used flags after a frame -/

theorem mem_layerGroup {c : Cfg} {lc : LayerCfg} {group : BitVec 4} {i : Nat} :
    i ∈ layerGroup c lc group ↔ ∃ pen, pen < 16 ∧ i = (lc.palBase + 16 * group.toNat + pen) % c.palN := by
  simp only [layerGroup, layerIndex, List.mem_map, List.mem_range, eq_comm]

theorem mem_spriteGroup {c : Cfg} {color : BitVec 4} {i : Nat} :
    i ∈ spriteGroup c color ↔ ∃ pen, pen < 16 ∧ i = (c.sprPalBase + 16 * color.toNat + pen) % c.palN := by
  simp only [spriteGroup, spriteIndex, List.mem_map, List.mem_range, eq_comm]

/-- The cell of layer `l` that a frame of `s` shows at the unflipped screen position (ux, uy) (R222, R227). -/
def shownCell (s : State) (l : LayerId) (ux uy : Nat) : Nat :=
  let p := scrollWith s.cfg (s.cfg.layer l) (s.layer l) (resolveScroll l s) ux uy
  cellAt (s.cfg.layer l) p.1 p.2

theorem shownCell_lt {s : State} (hb : boardLegal s.cfg = true) (l : LayerId) (ux uy : Nat) :
    shownCell s l ux uy < cellsOf (s.cfg.layer l) := by
  have hlegal := layerLegal_of_legal hb l
  obtain ⟨hx, hy⟩ := scrollWith_lt_of_legal hlegal s.cfg (s.layer l) (resolveScroll l s) ux uy
  exact cellAt_lt_of_legal hlegal hx hy

/-- The visible cells of a frame, by the storage at its start (R227). -/
theorem mem_visibleCells_sampleFrame {s : State} (hb : boardLegal s.cfg = true) {l : LayerId} {o : Nat} :
    o ∈ visibleCells (sampleFrame s) l ↔
      ∃ ux uy, ux < s.cfg.screenW ∧ uy < s.cfg.screenH ∧ shownCell s l ux uy = o := by
  simp only [mem_visibleCells_iff, scrollMap_sampleFrame hb, sampleFrame_cfg, shownCell]

/-- The layers' part of what a frame accumulates, by the storage at its start (R271). -/
theorem mem_visibleGroups_sampleFrame {s : State} (hb : boardLegal s.cfg = true) (hinfo : InfoCoherent s) {i : Nat} :
    (∃ l ∈ layersOf (sampleFrame s).cfg, ∃ o ∈ visibleCells (sampleFrame s) l,
        i ∈ layerGroup (sampleFrame s).cfg ((sampleFrame s).cfg.layer l) (infoAt ((sampleFrame s).layer l) o).colorGroup)
      ↔ ∃ l ux uy pen, ux < s.cfg.screenW ∧ uy < s.cfg.screenH ∧ pen < 16
          ∧ i = ((s.cfg.layer l).palBase
              + 16 * (decodeInfo (s.cfg.layer l).dec (tileAt (s.layer l) (shownCell s l ux uy))).colorGroup.toNat
              + pen) % s.cfg.palN := by
  simp only [sampleFrame_cfg, mem_layerGroup]
  constructor
  · rintro ⟨l, -, o, ho, pen, hpen, hi⟩
    obtain ⟨ux, uy, hx, hy, rfl⟩ := (mem_visibleCells_sampleFrame hb).mp ho
    rw [infoAt_sampleFrame hb hinfo l (shownCell_lt hb l ux uy)] at hi
    exact ⟨l, ux, uy, pen, hx, hy, hpen, hi⟩
  · rintro ⟨l, ux, uy, pen, hx, hy, hpen, hi⟩
    rw [← infoAt_sampleFrame hb hinfo l (shownCell_lt hb l ux uy)] at hi
    exact ⟨l, mem_layersOf hb l, _, (mem_visibleCells_sampleFrame hb).mpr ⟨ux, uy, hx, hy, rfl⟩, pen, hpen, hi⟩

theorem usedAt_respond (r : Response) (s : State) (i : Nat) : usedAt (respond r s) i = usedAt s i := rfl

/-- The used flags after a frame are those of the indices accumulated after step 3 (R271, R384). -/
theorem usedAt_renderFrame (s : State) (i : Nat) :
    usedAt (renderFrame s) i = true ↔ i ∈ accumulated (sampleFrame s) := by
  have hused : (renderFrame s).used = (stepAccumulate (sampleFrame s)).used := renderFrame_used s
  rw [usedAt, hused, ← usedAt, (stepAccumulate_spec (sampleFrame s)).1, decide_eq_true_iff]

/-- Settles O56: the frame marks what it accumulates after step 3, where INFO follows the tile words and SCR the control
words, and where the snapshot is still that of the start. -/
theorem frameMarksExactlyTheSampledColours : Obligations.FrameMarksExactlyTheSampledColours := by
  intro s hb hinfo hrun
  refine ⟨_, exec_frameRender_running hrun, ?_⟩
  intro i _ shown live sprite
  have hstorage := storageOf_sampleFrame s
  obtain ⟨hentries, hcolor⟩ := spriteEntries_eq (sampleFrame_cfg s) (congrArg Storage.snap hstorage)
  have hlive : ∀ e, e ∈ liveEntries (sampleFrame s) ↔ live e := fun e => by
    rw [hentries]
    exact mem_liveEntries_iff
  have hsprite : (∃ e ∈ liveEntries (sampleFrame s), i ∈ spriteGroup (sampleFrame s).cfg (entryColor (sampleFrame s) e))
      ↔ sprite := by
    simp only [hlive, mem_spriteGroup, hcolor, sampleFrame_cfg, entryColor_toNat, sprite, exists_and_left]
  rw [usedAt_respond, usedAt_renderFrame, mem_accumulated, hsprite, mem_visibleGroups_sampleFrame hb hinfo, sampleFrame_cfg]
  rfl

end Sys2Proof.Machine
end

section
/-!
PROOFS. The sprite compositor family: the entries a pass draws, in walk order (O48), and what H.SPRDRAW leaves of the
screen (O47).
-/

namespace Sys2Proof.Machine

/-! ## The drawn entries -/

theorem walksBefore_desc {c : Cfg} (h : c.sprOrder = .desc) {d e : Nat} : WalksBefore c d e ↔ e < d := by
  simp [WalksBefore, h]

theorem walksBefore_asc {c : Cfg} (h : c.sprOrder = .asc) {d e : Nat} : WalksBefore c d e ↔ d < e := by
  simp [WalksBefore, h]

/-- No two entries of a pass are drawn against the walk (R316). -/
theorem drawnEntries_pairwise (s : State) (pass : SprPass) : (drawnEntries s pass).Pairwise (WalksBefore s.cfg) :=
  (walkOrder_pairwise s.cfg).sublist (drawnEntries_sublist s pass)

/-- The pass draws PRIO LOW or HIGH, and the entry does not flash on this frame's parity (R313, R314). -/
def PassSelects (s : State) (pass : SprPass) (e : Nat) : Prop :=
  ((entryWord s e 2).getLsbD 11 = true ↔ pass = .high)
    ∧ ¬ ((entryWord s e 0).getLsbD 12 = true ∧ s.frameCnt.getLsbD 0 = s.cfg.sprFlashSkipParity)

theorem entryPrio_eq_passPrio_iff {s : State} {pass : SprPass} {e : Nat} :
    entryPrio s e = passPrio pass ↔ ((entryWord s e 2).getLsbD 11 = true ↔ pass = .high) := by
  rw [entryPrio, passPrio, Bool.eq_iff_iff, beq_iff_eq]

/-- The drawn entries: the live ones that the pass selects (R313, R314). -/
theorem mem_drawnEntries_iff {s : State} {pass : SprPass} {e : Nat} :
    e ∈ drawnEntries s pass ↔ e ∈ liveEntries s ∧ PassSelects s pass e := by
  rw [drawnEntries, List.mem_filter, Bool.and_eq_true, beq_iff_eq, entryPrio_eq_passPrio_iff, Bool.not_eq_true',
    Bool.eq_false_iff, Ne, Bool.and_eq_true, beq_iff_eq]
  rfl

/-- An entry of the table that is not unused and that the pass selects (R305, R313, R314). -/
def Drawable (s : State) (pass : SprPass) (e : Nat) : Prop :=
  e < s.cfg.sprN ∧ entryTile s e ≠ s.cfg.sprUnusedTile ∧ PassSelects s pass e

/-- Under SKIP an unused entry hides no other (R305). -/
theorem mem_drawnEntries_skip {s : State} (h : s.cfg.sprUnusedAction = .skip) {pass : SprPass} {e : Nat} :
    e ∈ drawnEntries s pass ↔ Drawable s pass e := by
  simp [mem_drawnEntries_iff, mem_liveEntries_iff, Drawable, h, and_assoc]

/-- Under STOP the walk meets no unused entry up to a drawn one, itself included (R305). -/
theorem mem_drawnEntries_stop {s : State} (h : s.cfg.sprUnusedAction = .stop) {pass : SprPass} {e : Nat} :
    e ∈ drawnEntries s pass ↔ Drawable s pass e
      ∧ ∀ d, d = e ∨ WalksBefore s.cfg d e → d < s.cfg.sprN → entryTile s d ≠ s.cfg.sprUnusedTile := by
  rw [mem_drawnEntries_iff, mem_liveEntries_iff]
  constructor
  · rintro ⟨⟨he, hused, hbefore⟩, hselects⟩
    refine ⟨⟨he, hused, hselects⟩, ?_⟩
    rintro d (rfl | hlt) hd
    · exact hused
    · exact hbefore h d hd hlt
  · rintro ⟨⟨he, hused, hselects⟩, hupto⟩
    exact ⟨⟨he, hused, fun _ d hd hlt => hupto d (.inr hlt) hd⟩, hselects⟩

/-- Settles O48: the drawn entries are a sublist of the walk, and up to an entry the walk meets those from it on under
DESC, those to it under ASC. -/
theorem passDrawsItsEntries : Obligations.PassDrawsItsEntries := by
  intro s pass
  refine ⟨fun hdesc => ?_, fun hasc => ?_, fun e => ⟨?_, fun hstop hdesc => ?_, fun hstop hasc => ?_⟩⟩
  · exact (drawnEntries_pairwise s pass).imp (walksBefore_desc hdesc).mp
  · exact (drawnEntries_pairwise s pass).imp (walksBefore_asc hasc).mp
  · exact fun hskip => mem_drawnEntries_skip hskip
  · have hupto : ∀ d, d = e ∨ WalksBefore s.cfg d e ↔ e ≤ d := fun d => by
      rw [walksBefore_desc hdesc]
      omega
    rw [mem_drawnEntries_stop hstop]
    simp only [hupto]
    rfl
  · have hupto : ∀ d, d = e ∨ WalksBefore s.cfg d e ↔ d ≤ e := fun d => by
      rw [walksBefore_asc hasc]
      omega
    rw [mem_drawnEntries_stop hstop]
    simp only [hupto]
    exact and_congr_right fun ⟨he, _⟩ => forall_congr' fun d => forall_congr' fun hle =>
      forall_prop_of_true (Nat.lt_of_le_of_lt hle he)

/-! ## SPRDRAW -/

/-- Settles O47: H.SPRDRAW performs `drawSprites`, whose last write at a pixel is found cell by cell. -/
theorem spriteDrawPaintsInWalkOrder : Obligations.SpriteDrawPaintsInWalkOrder := by
  intro s pass hrun
  obtain ⟨hcomp, -⟩ := drawSprites_spec s pass
  refine ⟨respond .silent (drawSprites pass s), ?_, fun X Y _ _ => ?_, rfl, rfl⟩
  · rw [exec_hSprdraw, transact_running s _ hrun]
  · calc compAt (respond .silent (drawSprites pass s)) X Y
        = lastWrite (spriteWrites s s.flipPrev pass) (screenKey s.cfg X Y) (compAt s X Y) := hcomp _
      _ = _ := lastWrite_spriteWrites s s.flipPrev pass _ _

end Sys2Proof.Machine
end

section
/-!
PROOFS. The priority arbiter family: the lookup of the merged key (O30), the fixed key 0x00F1 (O31) and the readback
(O32).
-/

namespace Sys2Proof.Machine

/-! ## The written key -/

/-- Settles O30: PROT.WR presents the merged key to the table, and the table has it or not. -/
theorem protectionWriteLooksUpTheKey : Obligations.ProtectionWriteLooksUpTheKey := by
  intro s data mask hrun key
  obtain ⟨hhit, hmiss⟩ := presentKey_spec s key
  have hexec : exec (.protWr data mask) s = .next (respond .silent (presentKey key s)) := by
    rw [exec_protWr, transact_running s _ hrun]
  rw [hexec]
  constructor
  · intro e he
    rw [hhit e he]
    rfl
  · intro hnone
    rw [hmiss hnone]
    rfl

/-- Settles O31: a legal board's table holds 0x00F1 with LEVEL1, so the write hits that entry. -/
theorem keyF1SelectsLevel1 : Obligations.KeyF1SelectsLevel1 := by
  intro s data mask hb hrun hkey
  obtain ⟨e, he, hlevel⟩ := prioLookup_of_legal hb
  obtain ⟨hhit, -⟩ := protectionWriteLooksUpTheKey s data mask hrun
  exact ⟨_, e, hhit e (hkey.symm ▸ he), he, hlevel, rfl, hkey⟩

/-! ## The readback -/

/-- Settles O32: PROT.RD only answers the readback. -/
theorem protectionReadReturnsTheReadback : Obligations.ProtectionReadReturnsTheReadback := by
  intro s hrun
  rw [exec_protRd, transact_running s _ hrun, returnData, respond]

end Sys2Proof.Machine
end

section
/-!
PROOFS. The frame sequencer family: the storage and the control state after a frame (O54), the micro-operations the
sequencer owns (O41, O53), and the states that reset leaves (O9, O10).
-/

namespace Sys2Proof.Machine

/-! ## What a frame leaves of the storage -/

/-- The draws and the output write COMP and OUT, the counter FRAME_CNT; of the storage a frame so writes the polled
FLIP_PREV and the incremented FRAME_CNT alone (R381, R389). -/
theorem storageOf_renderFrame_eq (s : State) :
    storageOf (renderFrame s) = { storageOf s with flipPrev := flipBit s, frameCnt := s.frameCnt + 1 } := by
  obtain ⟨comp, hcomp⟩ := stepComposite_eq (prepareFrame s)
  have hprepared := storageOf_prepareFrame s
  rw [renderFrame_eq, hcomp]
  generalize prepareFrame s = u at hprepared
  have hcnt : u.frameCnt = s.frameCnt := congrArg Storage.frameCnt hprepared
  calc storageOf (countFrame (stepOutput { u with comp := comp }))
      = { storageOf u with frameCnt := u.frameCnt + 1 } := rfl
    _ = { storageOf s with flipPrev := flipBit s, frameCnt := s.frameCnt + 1 } := by
      rw [hcnt, hprepared]
      rfl

/-- States whose storage differs in FLIP_PREV and FRAME_CNT at most have the same CPU-written storage. -/
theorem sameStorage_of_storageOf_eq {s t : State} {f : Bool} {n : BitVec 32}
    (h : storageOf t = { storageOf s with flipPrev := f, frameCnt := n }) : SameStorage s t := by
  have hlayers : ∀ l, (t.layer l).tile = (s.layer l).tile ∧ (t.layer l).rowtab = (s.layer l).rowtab
      ∧ (t.layer l).coltab = (s.layer l).coltab := fun l =>
    ⟨congrFun (congrArg Storage.tile h) l, congrFun (congrArg Storage.rowtab h) l,
      congrFun (congrArg Storage.coltab h) l⟩
  exact ⟨congrArg Storage.cfg h, hlayers, congrArg Storage.cr h, congrArg Storage.pal0 h, congrArg Storage.pal1 h,
    congrArg Storage.sprram h, congrArg Storage.snap h, congrArg Storage.pstate h, congrArg Storage.preadback h,
    congrArg Storage.platch h⟩

/-! ## What a frame leaves of the control state -/

/-- The parts of a state that no micro-operation and no frame touches: FAULT and REFUSED, which halt the block
(R431), and the model's own stream and draw count (log 1, log 8). -/
structure Control where
  fault : Option Fault
  refused : Bool
  port : List Txn
  draws : Nat

/-- The control state. -/
def controlOf (s : State) : Control := { fault := s.fault, refused := s.refused, port := s.port, draws := s.draws }

/-- A micro-operation writes caches, flags and buffers: no control state. -/
theorem MicroOp.controlOf_eq {s u : State} (hu : MicroOp s u) : controlOf u = controlOf s := by
  cases hu with
  | recompute =>
    unfold Machine.recompute
    split <;> rfl
  | _ => rfl

/-- No step of a frame raises a fault, refuses a word, takes one or draws an open-bus value (R380). -/
theorem controlOf_renderFrame (s : State) : controlOf (renderFrame s) = controlOf s :=
  renderFrame_keeps (P := fun u => controlOf u = controlOf s) (fun hu ht => hu.controlOf_eq.trans ht)
    (fun _ _ ht => ht) (fun _ ht => ht) rfl

/-- Settles O54: a running block performs the frame, which writes FLIP_PREV and FRAME_CNT of the storage and no control
state. -/
theorem frameRenderCompletes : Obligations.FrameRenderCompletes := by
  intro s hrun
  refine ⟨_, exec_frameRender_running hrun, ?_⟩
  have hstorage := storageOf_renderFrame_eq s
  have hcontrol := controlOf_renderFrame s
  generalize renderFrame s = u at hstorage hcontrol
  have hcnt : u.frameCnt = s.frameCnt + 1 := congrArg Storage.frameCnt hstorage
  have hflip : u.flipPrev = flipBit s := congrArg Storage.flipPrev hstorage
  have hsame : SameStorage s (respond .frame u) := sameStorage_of_storageOf_eq ((storageOf_respond ..).trans hstorage)
  refine ⟨?_, rfl, hflip, hsame, congrArg Control.fault hcontrol, congrArg Control.refused hcontrol,
    congrArg Control.port hcontrol, congrArg Control.draws hcontrol⟩
  rw [respond_frameCnt, hcnt, BitVec.toNat_add]
  rfl

/-! ## H.LATCHSCROLL -/

/-- The mode by the code of the MODE field, code 3 reserved (R44, R215). -/
theorem modeOf_eq (c : Cfg) {m : Nat} (hm : m < 4) :
    modeOf c m = if m = 0 then .whole else if m = 1 then .row else if m = 2 then .col else c.reservedMode := by
  match m, hm with
  | 0, _ => rfl
  | 1, _ => rfl
  | 2, _ => rfl
  | 3, _ => rfl

/-- The scroll x, scroll y and mode words of a slot by an `if` (R43, R44). -/
theorem slotWords_eq (sl : Slot) :
    slotWords sl = (if sl = .a then 1 else 3, if sl = .a then 2 else 4, if sl = .a then 5 else 6) := by
  cases sl <;> rfl

/-- resolveScroll in numbers: the mode in bits 1:0 of the mode word, the granularity exponent in bits 4:2 (R215,
R219). -/
theorem resolveScroll_spec (l : LayerId) (s : State) :
    let lc := s.cfg.layer l
    let m := (crAt s lc.cb (if lc.slot = .a then 5 else 6)).toNat
    resolveScroll l s
      = { mode := if m % 4 = 0 then .whole else if m % 4 = 1 then .row else if m % 4 = 2 then .col
            else s.cfg.reservedMode
          sx := crAt s lc.cb (if lc.slot = .a then 1 else 3), sy := crAt s lc.cb (if lc.slot = .a then 2 else 4)
          gran := 2 ^ (m / 4 % 8 + s.cfg.granBase) } := by
  intro lc m
  have hmode : field (crAt s lc.cb (slotWords lc.slot).2.2) 0 2 = m % 4 := by
    rw [field_eq, slotWords_eq, pow_zero, Nat.div_one]
    rfl
  have hgran : field (crAt s lc.cb (slotWords lc.slot).2.2) 2 3 = m / 4 % 8 := by
    rw [field_eq, slotWords_eq]
    rfl
  rw [resolveScroll, hmode, hgran, modeOf_eq _ (Nat.mod_lt _ (by decide)), slotWords_eq]

/-- Settles O41: H.LATCHSCROLL performs `latchScroll`, and `resolveScroll_spec` says what it latches. -/
theorem latchscrollResolvesTheScroll : Obligations.LatchscrollResolvesTheScroll := by
  intro s hrun
  refine ⟨fun l hl => ?_, fun l x hx => ?_⟩
  · rw [exec_hLatchscroll, transact_layerArg_none _ hrun hl]
  · intro lc wx wy m
    rw [exec_hLatchscroll, transact_layerArg_some _ hrun hx, latchScroll_spec, resolveScroll_spec, respond]

/-! ## H.FILL and H.OUTPUT -/

/-- Settles O53: the two perform `fillBackdrop` and `stepOutput`, each with its `_spec`. -/
theorem fillAndOutput : Obligations.FillAndOutput := by
  intro s hrun
  obtain ⟨hfill, -⟩ := fillBackdrop_spec s
  obtain ⟨houtput, -⟩ := stepOutput_spec s
  rw [exec_hFill, exec_hOutput, transact_running s _ hrun, transact_running s _ hrun]
  exact ⟨⟨respond .silent (fillBackdrop s), rfl, hfill, rfl, rfl⟩,
    ⟨respond .silent (stepOutput s), rfl, houtput, rfl, rfl⟩⟩

/-! ## The states that reset leaves -/

/-- With every cell dirty and stale, the caches of a layer need not follow anything (R473). -/
theorem LayerCoherent.of_launch {c : Cfg} {lc : LayerCfg} {x : LayerState} (h : LayerLaunch x) :
    LayerCoherent c lc x := by
  obtain ⟨hdirty, hstale, -⟩ := h
  constructor
  · intro o _ hclean
    cases (hdirty o).symm.trans hclean
  · intro lx ly _ _ hfresh
    cases (hstale _).symm.trans hfresh

/-- With a palette write outstanding, PUB need not follow the palette words (R473). -/
theorem PubCoherent.of_palDirty {s : State} (h : s.palDirty = true) : PubCoherent s := by
  intro hclean
  cases h.symm.trans hclean

/-- Settles O10: the marks, PAL_DIRTY and the equal flips of a launch meet the invariants, whatever else it holds. -/
theorem launchIsCoherent : Obligations.LaunchIsCoherent := by
  intro s hlaunch
  obtain ⟨hlayers, hpalDirty, -, -, -, -, -, hflipPrev, -, hfault, hrefused⟩ := hlaunch
  have hcoherent : Coherent s := fun l => .of_launch (hlayers l)
  have hsync : FlipSync s := fun l => by
    obtain ⟨-, -, hflip⟩ := hlayers l
    rw [hflip, hflipPrev]
  have hrun : halted s = false := by
    rw [halted, hfault, hrefused]
    rfl
  obtain ⟨hinfo, hcache⟩ := coherent_iff.mp hcoherent
  exact ⟨hinfo, hcache, .of_palDirty hpalDirty, hsync, hrun⟩

/-- Every layer after reset. -/
@[simp] theorem State.layer_reset (l : LayerId) : State.reset.layer l = LayerState.reset := by
  cases l <;> rfl

/-- The reset state is a launch: its empty arrays read the values R470 gives. -/
theorem launch_reset : Launch State.reset := by
  refine ⟨fun l => ?_, rfl, fun _ => rfl, fun _ => rfl, rfl, rfl, rfl, rfl, rfl, rfl, rfl⟩
  rw [State.layer_reset]
  exact ⟨fun _ => rfl, fun _ => rfl, rfl⟩

/-- The default board is legal, whatever the constants without a body are: its first priority entry is the one that R355
asks for (R7, R9). -/
theorem boardLegal_defaultBoard : boardLegal Config.defaultBoard = true := by
  decide

/-- Empty arrays read palette index 0, and the reset granularity is 1 (R470, log 7). -/
theorem bounded_reset : Bounded State.reset where
  board := boardLegal_defaultBoard
  comp _ := palN_pos_of_legal boardLegal_defaultBoard
  layers l := by
    rw [State.layer_reset]
    exact ⟨fun _ => palN_pos_of_legal boardLegal_defaultBoard, by decide, by decide⟩

/-- Settles O9: reset is a launch, so O10 gives the coherence; its arrays are empty, so canonical and bounded. -/
theorem resetIsGood : Obligations.ResetIsGood := by
  obtain ⟨hinfo, hcache, hpub, hsync, -⟩ := launchIsCoherent State.reset launch_reset
  obtain ⟨hboard, hindex, hgran⟩ := bounded_iff.mp bounded_reset
  have hmem : memWf State.reset = true := rfl
  have hsilent : HaltedSilent State.reset := fun _ => rfl
  exact ⟨⟨hboard, hmem, hinfo, hcache, hpub, hindex, hgran, hsilent⟩, hsync⟩

end Sys2Proof.Machine
end

section
/-!
PROOFS. The exceptions family: the halted state that no step leaves (O15) and in which every step is the identity (O6),
and the NO_WINDOW and BAD_ARG faults of an instance or an argument outside the board (O59).
-/

namespace Sys2Proof.Machine

/-! ## The halted state -/

/-- Either cause halts the block, and there is no other (R431). -/
theorem halted_iff {s : State} : halted s = true ↔ s.fault ≠ none ∨ s.refused = true := by
  rw [halted, Bool.or_eq_true, Option.isSome_iff_ne_none]

/-- Halting is read off the control state. -/
theorem halted_congr {s t : State} (h : controlOf t = controlOf s) : halted t = halted s := by
  have hfault : t.fault = s.fault := congrArg Control.fault h
  have hrefused : t.refused = s.refused := congrArg Control.refused h
  rw [halted, halted, hfault, hrefused]

/-- A transaction halts the block by a fault or not at all (R430). -/
theorem Effect.fault_or_halted_eq {s t : State} {i : Instr} (hi : Effect s i t) :
    (∃ e, t = raiseFault e s) ∨ halted t = halted s := by
  cases hi with
  | fault i e => exact .inl ⟨e, rfl⟩
  | micro i r hu => exact .inr (halted_congr hu.controlOf_eq)
  | frame => exact .inr (halted_congr (controlOf_renderFrame s))
  | idle | data | openBus | tile | rowtab | coltab | cr | pal0 | pal1 | sprram | snap | arbiter => exact .inr rfl

theorem HaltedSilent.of_running {s : State} (hrun : halted s = false) : HaltedSilent s :=
  fun hhalt => absurd hhalt (Bool.eq_false_iff.mp hrun)

/-- What a running block makes of a transaction: a fault, which is silent, or a block that still runs. -/
theorem haltedSilent_exec {s t : State} {i : Instr} (hrun : halted s = false) (hexec : exec i s = .next t) :
    HaltedSilent t := by
  obtain ⟨e, rfl⟩ | hhalt := (exec_effect hexec).fault_or_halted_eq
  · exact fun _ => rfl
  · exact .of_running (hhalt.trans hrun)

/-- Settles O15: a step idles, or it meets a running block, which a silent refusal or a silent fault alone can halt. -/
theorem stepKeepsHaltedSilent : Obligations.StepKeepsHaltedSilent := by
  intro s t hsilent hstep
  obtain rfl | ⟨w, rest, -, -, hrun, hperform⟩ := step_next s hstep
  · exact ⟨hsilent, id⟩
  · refine ⟨?_, fun hhalt => absurd hhalt (Bool.eq_false_iff.mp hrun)⟩
    obtain ⟨r, -, rfl⟩ | ⟨i, -, hexec⟩ := hperform
    · exact fun _ => rfl
    · exact haltedSilent_exec (s := { s with port := rest }) hrun hexec

/-- Settles O6: either cause halts the block, and a halted block takes no word and performs no transaction. -/
theorem haltedBlockIsStuck : Obligations.HaltedBlockIsStuck := by
  intro s hboard hsilent hcause
  have hhalt : halted s = true := halted_iff.mpr hcause
  exact ⟨takeStep_halted s hboard hhalt, hsilent hhalt, fun i => exec_halted s i hhalt⟩

/-! ## Absent instances -/

section Absent

variable {s : State} {region b : Nat}

theorem transact_blockWindow_ge (f : State → State) (hrun : halted s = false) (hb : s.cfg.ncb ≤ b) :
    transact (withBlockWindow region b f) s = .next { s with fault := some (.noWindow region b), resp := .silent } := by
  rw [transact_running s _ hrun, withBlockWindow_ge s f hb, raiseFault]

theorem transact_paletteArg_ge {op : HarnessOp} {i : Nat} (f : State → State) (hrun : halted s = false)
    (hi : s.cfg.palN ≤ i) :
    transact (withPaletteArg op i f) s = .next { s with fault := some (.badArg op i), resp := .silent } := by
  rw [transact_running s _ hrun, withPaletteArg_ge s f hi, raiseFault]

end Absent

/-- The layer numbers of a legal board (R9, R392). -/
theorem layerOf_legal {c : Cfg} (h : boardLegal c = true) (l : Nat) :
    layerOf c l = [LayerId.bg, .mida, .midb, .fg][l]? := by
  rw [layerOf, layersOf_legal h]

/-- Settles O59: the operand check comes first, and an operand outside the board gives the fault and nothing else. -/
theorem absentInstancesFault : Obligations.AbsentInstancesFault := by
  refine ⟨?_, fun c hboard => ⟨nl_of_legal hboard, layerOf_legal hboard 0, layerOf_legal hboard 1,
    layerOf_legal hboard 2, layerOf_legal hboard 3⟩⟩
  intro s n off d m pass f hrun window arg
  refine ⟨fun hl => ?tables, fun hb => ?blocks, fun hfmt => ?bank1, fun hl => ?layers, fun hi => ?palette⟩
  case tables =>
    have key {i region g} (hi : exec i s = transact (withLayerWindow region n g) s) : window i region n :=
      hi.trans (transact_layerWindow_none g hrun hl)
    exact ⟨key (exec_tileWr ..), key (exec_tileRd ..), key (exec_rscrWr ..), key (exec_rscrRd ..),
      key (exec_cscrWr ..), key (exec_cscrRd ..)⟩
  case blocks =>
    have key {i g} (hi : exec i s = transact (withBlockWindow 0x4 n g) s) : window i 0x4 n :=
      hi.trans (transact_blockWindow_ge g hrun hb)
    exact ⟨key (exec_ctrlWr ..), key (exec_ctrlRd ..)⟩
  case bank1 =>
    have key {i g} (hi : exec i s = transact (withBank1 g) s) : window i 0x5 1 :=
      hi.trans (transact_bank1_packed g hrun hfmt)
    exact ⟨key (exec_palWr1 ..), key (exec_palRd1 ..)⟩
  case layers =>
    have key {i op g} (hi : exec i s = transact (withLayerArg op n g) s) : arg i op :=
      hi.trans (transact_layerArg_none g hrun hl)
    exact ⟨key (exec_hUpdate ..), key (exec_hRender ..), key (exec_hDraw ..), key (exec_hSetflip ..),
      key (exec_hMarkalldirty ..), key (exec_hLatchscroll ..), key (exec_hInvalidate ..)⟩
  case palette => exact (exec_hMarkused ..).trans (transact_paletteArg_ge _ hrun hi)

end Sys2Proof.Machine
end

section
/-!
PROOFS. The reset family: reset leaves a launch state (O8), the premise under which O10 gives the coherence.
-/

namespace Sys2Proof.Machine

/-- Settles O8: an unlisted mark of DIRTY and STALE reads 1 and an unlisted flag of USED and USED_PREV reads 0, so the
empty arrays of reset read R470's values; its registers are R470's own literals. -/
theorem resetSetsEveryGivenValue : Obligations.ResetSetsEveryGivenValue := launch_reset

end Sys2Proof.Machine
end
